-- ==== Sys2Proof/Word.lean ====
section
/-! DEFINITION. The two word types of the core: bytes (data) and 16-bit words (addresses), spec 00_scope.md R8, R9. -/

namespace Sys2Proof

/-- `u8` of R9: A, X, Y, SP, P and every byte of memory. -/
abbrev Byte := BitVec 8

/-- `u16` of R9: PC and every bus address. -/
abbrev Word := BitVec 16

end Sys2Proof
end

