-- ==== Sys2Proof/Machine/Bits.lean ====
section
/-! DEFINITION. Byte order, zero and sign extension (00_scope.md R9, R10; 20_memory.md R53). -/

namespace Sys2Proof

/-- Bits 7..0 of a word. -/
def lo (w : Word) : Byte := w.extractLsb' 0 8

/-- Bits 15..8 of a word. -/
def hi (w : Word) : Byte := w.extractLsb' 8 8

/-- `h ++ l` of R9: the word `h * 256 + l`. -/
def word (h l : Byte) : Word := h ++ l

/-- `zext16` of R10. -/
def zext16 (b : Byte) : Word := b.setWidth 16

/-- `sext16` of R10: the byte as two's complement, widened. -/
def sext16 (b : Byte) : Word := b.signExtend 16

/-- The address `0x0100 + SP` of the stack byte that SP names (R20, R130). -/
def stackAddr (sp : Byte) : Word := 0x0100#16 ||| zext16 sp

end Sys2Proof
end

