-- ==== Sys2Proof/Syntax.lean ====
section
/-! DEFINITION. The instructions as data: the 13 addressing modes (30_encoding.md R81), the 78 instruction tags (R85), the
operand shapes of each mode (R82) and the instruction type, one constructor per tag. -/

namespace Sys2Proof

/-- The 13 addressing modes of R81. -/
inductive Mode where
  | implied | accumulator | immediate | zeroPage | absolute | relative | zeroPageX | zeroPageY | absoluteX | absoluteY
  | indirect | indexedIndirect | indirectIndexed
  deriving DecidableEq, Repr

/-- The 78 instruction tags of R85: 56 documented, then 22 undocumented. -/
inductive Tag where
  | adc | and | asl | bcc | bcs | beq | bit | bmi | bne | bpl | brk | bvc | bvs | clc
  | cld | cli | clv | cmp | cpx | cpy | dec | dex | dey | eor | inc | inx | iny | jmp
  | jsr | lda | ldx | ldy | lsr | nop | ora | pha | php | pla | plp | rol | ror | rti
  | rts | sbc | sec | sed | sei | sta | stx | sty | tax | tay | tsx | txa | txs | tya
  | aac | aax | arr | asr | atx | axa | axs | dcp | dop | isc | kil
  | lar | lax | rla | rra | slo | sre | sxa | sya | top | xaa | xas
  deriving DecidableEq, Repr

/-- An addressing mode with the operand bytes it consumes, assembled as R82 says: one byte, or a word whose first byte is
the low one. -/
inductive Operand where
  | implied
  | accumulator
  | immediate (b : Byte)
  | zeroPage (b : Byte)
  | absolute (w : Word)
  | relative (b : Byte)
  | zeroPageX (b : Byte)
  | zeroPageY (b : Byte)
  | absoluteX (w : Word)
  | absoluteY (w : Word)
  | indirect (w : Word)
  | indexedIndirect (b : Byte)
  | indirectIndexed (b : Byte)
  deriving DecidableEq, Repr

/-- The mode of an operand. -/
def Operand.mode : Operand → Mode
  | .implied => .implied
  | .accumulator => .accumulator
  | .immediate _ => .immediate
  | .zeroPage _ => .zeroPage
  | .absolute _ => .absolute
  | .relative _ => .relative
  | .zeroPageX _ => .zeroPageX
  | .zeroPageY _ => .zeroPageY
  | .absoluteX _ => .absoluteX
  | .absoluteY _ => .absoluteY
  | .indirect _ => .indirect
  | .indexedIndirect _ => .indexedIndirect
  | .indirectIndexed _ => .indirectIndexed

/-- The instructions, one constructor per tag ("one handler per instruction tag", R1). A tag with one addressing mode
carries that mode's operand bytes; a tag with several carries an `Operand`. Where several opcode bytes share a tag and a
mode the constructor also carries the byte (`opc`; for SBC the flag `eb`), so that each of the 256 bytes is one
instruction form (log 5). -/
inductive Instr where
  -- load and store, 41_load_store.md
  | lda (op : Operand)
  | ldx (op : Operand)
  | ldy (op : Operand)
  | sta (op : Operand)
  | stx (op : Operand)
  | sty (op : Operand)
  -- arithmetic and compare, 42_arithmetic_compare.md; `eb` says the byte is the undocumented EB (47_undocumented.md R294)
  | adc (op : Operand)
  | sbc (op : Operand) (eb : Bool)
  | cmp (op : Operand)
  | cpx (op : Operand)
  | cpy (op : Operand)
  -- logical and BIT, 43_logical_bit.md
  | and (op : Operand)
  | ora (op : Operand)
  | eor (op : Operand)
  | bit (op : Operand)
  -- shift, rotate, increment, decrement, 44_shift_incdec.md
  | asl (op : Operand)
  | lsr (op : Operand)
  | rol (op : Operand)
  | ror (op : Operand)
  | inc (op : Operand)
  | dec (op : Operand)
  | inx
  | dex
  | iny
  | dey
  -- control transfer, 45_control_transfer.md; `off` is the signed branch offset
  | bcc (off : Byte)
  | bcs (off : Byte)
  | beq (off : Byte)
  | bne (off : Byte)
  | bmi (off : Byte)
  | bpl (off : Byte)
  | bvc (off : Byte)
  | bvs (off : Byte)
  | jmp (op : Operand)
  | jsr (addr : Word)
  | rts
  | brk
  | rti
  -- stack, flags, transfers, NOP, 46_stack_flags_transfers.md
  | pha
  | pla
  | php
  | plp
  | clc
  | sec
  | cld
  | sed
  | cli
  | sei
  | clv
  | tax
  | tay
  | tsx
  | txa
  | txs
  | tya
  | nop (opc : Byte)
  -- the 22 undocumented tags, 47_undocumented.md
  | aac (opc imm : Byte)
  | aax (op : Operand)
  | arr (imm : Byte)
  | asr (imm : Byte)
  | atx (imm : Byte)
  | axa (op : Operand)
  | axs (imm : Byte)
  | dcp (op : Operand)
  | dop (opc : Byte) (op : Operand)
  | isc (op : Operand)
  | kil (opc : Byte)
  | lar (addr : Word)
  | lax (op : Operand)
  | rla (op : Operand)
  | rra (op : Operand)
  | slo (op : Operand)
  | sre (op : Operand)
  | sxa (addr : Word)
  | sya (addr : Word)
  | top (opc : Byte) (op : Operand)
  | xaa (imm : Byte)
  | xas (addr : Word)
  deriving DecidableEq, Repr

/-- The tag of an instruction. -/
def Instr.tag : Instr → Tag
  | .lda _ => .lda | .ldx _ => .ldx | .ldy _ => .ldy | .sta _ => .sta | .stx _ => .stx | .sty _ => .sty
  | .adc _ => .adc | .sbc _ _ => .sbc | .cmp _ => .cmp | .cpx _ => .cpx | .cpy _ => .cpy
  | .and _ => .and | .ora _ => .ora | .eor _ => .eor | .bit _ => .bit
  | .asl _ => .asl | .lsr _ => .lsr | .rol _ => .rol | .ror _ => .ror | .inc _ => .inc | .dec _ => .dec
  | .inx => .inx | .dex => .dex | .iny => .iny | .dey => .dey
  | .bcc _ => .bcc | .bcs _ => .bcs | .beq _ => .beq | .bne _ => .bne
  | .bmi _ => .bmi | .bpl _ => .bpl | .bvc _ => .bvc | .bvs _ => .bvs
  | .jmp _ => .jmp | .jsr _ => .jsr | .rts => .rts | .brk => .brk | .rti => .rti
  | .pha => .pha | .pla => .pla | .php => .php | .plp => .plp
  | .clc => .clc | .sec => .sec | .cld => .cld | .sed => .sed | .cli => .cli | .sei => .sei | .clv => .clv
  | .tax => .tax | .tay => .tay | .tsx => .tsx | .txa => .txa | .txs => .txs | .tya => .tya | .nop _ => .nop
  | .aac _ _ => .aac | .aax _ => .aax | .arr _ => .arr | .asr _ => .asr | .atx _ => .atx | .axa _ => .axa
  | .axs _ => .axs | .dcp _ => .dcp | .dop _ _ => .dop | .isc _ => .isc | .kil _ => .kil | .lar _ => .lar
  | .lax _ => .lax | .rla _ => .rla | .rra _ => .rra | .slo _ => .slo | .sre _ => .sre | .sxa _ => .sxa
  | .sya _ => .sya | .top _ _ => .top | .xaa _ => .xaa | .xas _ => .xas

/-- The operand of an instruction, with the one addressing mode of its tag where the constructor leaves it out (R85). -/
def Instr.operand : Instr → Operand
  | .lda op | .ldx op | .ldy op | .sta op | .stx op | .sty op => op
  | .adc op | .sbc op _ | .cmp op | .cpx op | .cpy op => op
  | .and op | .ora op | .eor op | .bit op => op
  | .asl op | .lsr op | .rol op | .ror op | .inc op | .dec op => op
  | .inx | .dex | .iny | .dey => .implied
  | .bcc off | .bcs off | .beq off | .bne off | .bmi off | .bpl off | .bvc off | .bvs off => .relative off
  | .jmp op => op
  | .jsr addr => .absolute addr
  | .rts | .brk | .rti => .implied
  | .pha | .pla | .php | .plp => .implied
  | .clc | .sec | .cld | .sed | .cli | .sei | .clv => .implied
  | .tax | .tay | .tsx | .txa | .txs | .tya | .nop _ => .implied
  | .aac _ imm | .arr imm | .asr imm | .atx imm | .axs imm | .xaa imm => .immediate imm
  | .aax op | .axa op | .dcp op | .isc op | .lax op | .rla op | .rra op | .slo op | .sre op => op
  | .dop _ op | .top _ op => op
  | .kil _ => .implied
  | .lar addr | .sxa addr | .xas addr => .absoluteY addr
  | .sya addr => .absoluteX addr

/-- The addressing mode of an instruction. -/
def Instr.mode (i : Instr) : Mode := i.operand.mode

/-- The opcode byte an instruction carries, where its tag and mode leave a choice. `none` stands for the byte that R85
lists first for the tag and the mode. -/
def Instr.carriedByte : Instr → Option Byte
  | .sbc _ eb => if eb then some 0xEB#8 else none
  | .nop opc | .aac opc _ | .dop opc _ | .kil opc | .top opc _ => some opc
  | _ => none

end Sys2Proof
end

