-- ==== Sys2Proof/Machine/OpcodeTable.lean ====
section
/-! DEFINITION. The opcode table: the map of 30_encoding.md R84 with the cycle costs of R86, the list of opcodes per tag
of R85, and the instruction lengths of R80 and R88. The two tables are transcribed separately; Laws/OpcodeTable.lean checks
them against each other. -/

namespace Sys2Proof

/-- One cell of R84: the tag, the mode, the base cycle cost, and whether the byte is outside the 151 documented opcodes
(the leading `*`). -/
structure OpcodeEntry where
  tag     : Tag
  mode    : Mode
  cycles  : Nat
  starred : Bool
  deriving DecidableEq, Repr

/-- A documented opcode's cell. -/
def doc (t : Tag) (m : Mode) (c : Nat) : OpcodeEntry := ⟨t, m, c, false⟩

/-- A cell with the leading `*`. -/
def und (t : Tag) (m : Mode) (c : Nat) : OpcodeEntry := ⟨t, m, c, true⟩

/-- Bytes 00 to 0F (R84). -/
def opcodeRow0 : List OpcodeEntry := [
  doc .brk .implied 7, doc .ora .indexedIndirect 6, und .kil .implied 2, und .slo .indexedIndirect 8,
  und .dop .zeroPage 3, doc .ora .zeroPage 3, doc .asl .zeroPage 5, und .slo .zeroPage 5,
  doc .php .implied 3, doc .ora .immediate 2, doc .asl .accumulator 2, und .aac .immediate 2,
  und .top .absolute 4, doc .ora .absolute 4, doc .asl .absolute 6, und .slo .absolute 6]

/-- Bytes 10 to 1F (R84). -/
def opcodeRow1 : List OpcodeEntry := [
  doc .bpl .relative 2, doc .ora .indirectIndexed 5, und .kil .implied 2, und .slo .indirectIndexed 8,
  und .dop .zeroPageX 4, doc .ora .zeroPageX 4, doc .asl .zeroPageX 6, und .slo .zeroPageX 6,
  doc .clc .implied 2, doc .ora .absoluteY 4, und .nop .implied 2, und .slo .absoluteY 7,
  und .top .absoluteX 4, doc .ora .absoluteX 4, doc .asl .absoluteX 7, und .slo .absoluteX 7]

/-- Bytes 20 to 2F (R84). -/
def opcodeRow2 : List OpcodeEntry := [
  doc .jsr .absolute 6, doc .and .indexedIndirect 6, und .kil .implied 2, und .rla .indexedIndirect 8,
  doc .bit .zeroPage 3, doc .and .zeroPage 3, doc .rol .zeroPage 5, und .rla .zeroPage 5,
  doc .plp .implied 4, doc .and .immediate 2, doc .rol .accumulator 2, und .aac .immediate 2,
  doc .bit .absolute 4, doc .and .absolute 4, doc .rol .absolute 6, und .rla .absolute 6]

/-- Bytes 30 to 3F (R84). -/
def opcodeRow3 : List OpcodeEntry := [
  doc .bmi .relative 2, doc .and .indirectIndexed 5, und .kil .implied 2, und .rla .indirectIndexed 8,
  und .dop .zeroPageX 4, doc .and .zeroPageX 4, doc .rol .zeroPageX 6, und .rla .zeroPageX 6,
  doc .sec .implied 2, doc .and .absoluteY 4, und .nop .implied 2, und .rla .absoluteY 7,
  und .top .absoluteX 4, doc .and .absoluteX 4, doc .rol .absoluteX 7, und .rla .absoluteX 7]

/-- Bytes 40 to 4F (R84). -/
def opcodeRow4 : List OpcodeEntry := [
  doc .rti .implied 6, doc .eor .indexedIndirect 6, und .kil .implied 2, und .sre .indexedIndirect 8,
  und .dop .zeroPage 3, doc .eor .zeroPage 3, doc .lsr .zeroPage 5, und .sre .zeroPage 5,
  doc .pha .implied 3, doc .eor .immediate 2, doc .lsr .accumulator 2, und .asr .immediate 2,
  doc .jmp .absolute 3, doc .eor .absolute 4, doc .lsr .absolute 6, und .sre .absolute 6]

/-- Bytes 50 to 5F (R84). -/
def opcodeRow5 : List OpcodeEntry := [
  doc .bvc .relative 2, doc .eor .indirectIndexed 5, und .kil .implied 2, und .sre .indirectIndexed 8,
  und .dop .zeroPageX 4, doc .eor .zeroPageX 4, doc .lsr .zeroPageX 6, und .sre .zeroPageX 6,
  doc .cli .implied 2, doc .eor .absoluteY 4, und .nop .implied 2, und .sre .absoluteY 7,
  und .top .absoluteX 4, doc .eor .absoluteX 4, doc .lsr .absoluteX 7, und .sre .absoluteX 7]

/-- Bytes 60 to 6F (R84). -/
def opcodeRow6 : List OpcodeEntry := [
  doc .rts .implied 6, doc .adc .indexedIndirect 6, und .kil .implied 2, und .rra .indexedIndirect 8,
  und .dop .zeroPage 3, doc .adc .zeroPage 3, doc .ror .zeroPage 5, und .rra .zeroPage 5,
  doc .pla .implied 4, doc .adc .immediate 2, doc .ror .accumulator 2, und .arr .immediate 2,
  doc .jmp .indirect 5, doc .adc .absolute 4, doc .ror .absolute 6, und .rra .absolute 6]

/-- Bytes 70 to 7F (R84). -/
def opcodeRow7 : List OpcodeEntry := [
  doc .bvs .relative 2, doc .adc .indirectIndexed 5, und .kil .implied 2, und .rra .indirectIndexed 8,
  und .dop .zeroPageX 4, doc .adc .zeroPageX 4, doc .ror .zeroPageX 6, und .rra .zeroPageX 6,
  doc .sei .implied 2, doc .adc .absoluteY 4, und .nop .implied 2, und .rra .absoluteY 7,
  und .top .absoluteX 4, doc .adc .absoluteX 4, doc .ror .absoluteX 7, und .rra .absoluteX 7]

/-- Bytes 80 to 8F (R84). -/
def opcodeRow8 : List OpcodeEntry := [
  und .dop .immediate 2, doc .sta .indexedIndirect 6, und .dop .immediate 2, und .aax .indexedIndirect 6,
  doc .sty .zeroPage 3, doc .sta .zeroPage 3, doc .stx .zeroPage 3, und .aax .zeroPage 3,
  doc .dey .implied 2, und .dop .immediate 2, doc .txa .implied 2, und .xaa .immediate 2,
  doc .sty .absolute 4, doc .sta .absolute 4, doc .stx .absolute 4, und .aax .absolute 4]

/-- Bytes 90 to 9F (R84). -/
def opcodeRow9 : List OpcodeEntry := [
  doc .bcc .relative 2, doc .sta .indirectIndexed 6, und .kil .implied 2, und .axa .indirectIndexed 6,
  doc .sty .zeroPageX 4, doc .sta .zeroPageX 4, doc .stx .zeroPageY 4, und .aax .zeroPageY 4,
  doc .tya .implied 2, doc .sta .absoluteY 5, doc .txs .implied 2, und .xas .absoluteY 5,
  und .sya .absoluteX 5, doc .sta .absoluteX 5, und .sxa .absoluteY 5, und .axa .absoluteY 5]

/-- Bytes A0 to AF (R84). -/
def opcodeRowA : List OpcodeEntry := [
  doc .ldy .immediate 2, doc .lda .indexedIndirect 6, doc .ldx .immediate 2, und .lax .indexedIndirect 6,
  doc .ldy .zeroPage 3, doc .lda .zeroPage 3, doc .ldx .zeroPage 3, und .lax .zeroPage 3,
  doc .tay .implied 2, doc .lda .immediate 2, doc .tax .implied 2, und .atx .immediate 2,
  doc .ldy .absolute 4, doc .lda .absolute 4, doc .ldx .absolute 4, und .lax .absolute 4]

/-- Bytes B0 to BF (R84). -/
def opcodeRowB : List OpcodeEntry := [
  doc .bcs .relative 2, doc .lda .indirectIndexed 5, und .kil .implied 2, und .lax .indirectIndexed 5,
  doc .ldy .zeroPageX 4, doc .lda .zeroPageX 4, doc .ldx .zeroPageY 4, und .lax .zeroPageY 4,
  doc .clv .implied 2, doc .lda .absoluteY 4, doc .tsx .implied 2, und .lar .absoluteY 4,
  doc .ldy .absoluteX 4, doc .lda .absoluteX 4, doc .ldx .absoluteY 4, und .lax .absoluteY 4]

/-- Bytes C0 to CF (R84). -/
def opcodeRowC : List OpcodeEntry := [
  doc .cpy .immediate 2, doc .cmp .indexedIndirect 6, und .dop .immediate 2, und .dcp .indexedIndirect 8,
  doc .cpy .zeroPage 3, doc .cmp .zeroPage 3, doc .dec .zeroPage 5, und .dcp .zeroPage 5,
  doc .iny .implied 2, doc .cmp .immediate 2, doc .dex .implied 2, und .axs .immediate 2,
  doc .cpy .absolute 4, doc .cmp .absolute 4, doc .dec .absolute 6, und .dcp .absolute 6]

/-- Bytes D0 to DF (R84). -/
def opcodeRowD : List OpcodeEntry := [
  doc .bne .relative 2, doc .cmp .indirectIndexed 5, und .kil .implied 2, und .dcp .indirectIndexed 8,
  und .dop .zeroPageX 4, doc .cmp .zeroPageX 4, doc .dec .zeroPageX 6, und .dcp .zeroPageX 6,
  doc .cld .implied 2, doc .cmp .absoluteY 4, und .nop .implied 2, und .dcp .absoluteY 7,
  und .top .absoluteX 4, doc .cmp .absoluteX 4, doc .dec .absoluteX 7, und .dcp .absoluteX 7]

/-- Bytes E0 to EF (R84). -/
def opcodeRowE : List OpcodeEntry := [
  doc .cpx .immediate 2, doc .sbc .indexedIndirect 6, und .dop .immediate 2, und .isc .indexedIndirect 8,
  doc .cpx .zeroPage 3, doc .sbc .zeroPage 3, doc .inc .zeroPage 5, und .isc .zeroPage 5,
  doc .inx .implied 2, doc .sbc .immediate 2, doc .nop .implied 2, und .sbc .immediate 2,
  doc .cpx .absolute 4, doc .sbc .absolute 4, doc .inc .absolute 6, und .isc .absolute 6]

/-- Bytes F0 to FF (R84). -/
def opcodeRowF : List OpcodeEntry := [
  doc .beq .relative 2, doc .sbc .indirectIndexed 5, und .kil .implied 2, und .isc .indirectIndexed 8,
  und .dop .zeroPageX 4, doc .sbc .zeroPageX 4, doc .inc .zeroPageX 6, und .isc .zeroPageX 6,
  doc .sed .implied 2, doc .sbc .absoluteY 4, und .nop .implied 2, und .isc .absoluteY 7,
  und .top .absoluteX 4, doc .sbc .absoluteX 4, doc .inc .absoluteX 7, und .isc .absoluteX 7]

/-- The map of R84, one row per high digit. -/
def opcodeMap : List (List OpcodeEntry) :=
  [opcodeRow0, opcodeRow1, opcodeRow2, opcodeRow3] ++ [opcodeRow4, opcodeRow5, opcodeRow6, opcodeRow7] ++
  [opcodeRow8, opcodeRow9, opcodeRowA, opcodeRowB] ++ [opcodeRowC, opcodeRowD, opcodeRowE, opcodeRowF]

/-- `lookup(byte)` of R83, total: the row of the high digit, the column of the low digit. The two `getD` fallbacks are
never reached, since every row has 16 cells. -/
def lookup (b : Byte) : OpcodeEntry :=
  (opcodeMap.getD (b.toNat / 16) []).getD (b.toNat % 16) (und .kil .implied 2)

/-- How many operand bytes follow the opcode (R80). -/
def Mode.operandBytes : Mode → Nat
  | .implied | .accumulator => 0
  | .immediate | .zeroPage | .zeroPageX | .zeroPageY | .relative | .indexedIndirect | .indirectIndexed => 1
  | .absolute | .absoluteX | .absoluteY | .indirect => 2

/-- The length of an instruction in bytes (R80, R88). -/
def Mode.length (m : Mode) : Nat := 1 + m.operandBytes

/-- The opcodes of each tag with their modes, in the order of R85. -/
def Tag.opcodes : Tag → List (Byte × Mode)
  | .adc => [
      (0x61, .indexedIndirect), (0x65, .zeroPage), (0x69, .immediate), (0x6D, .absolute),
      (0x71, .indirectIndexed), (0x75, .zeroPageX), (0x79, .absoluteY), (0x7D, .absoluteX)]
  | .and => [
      (0x21, .indexedIndirect), (0x25, .zeroPage), (0x29, .immediate), (0x2D, .absolute),
      (0x31, .indirectIndexed), (0x35, .zeroPageX), (0x39, .absoluteY), (0x3D, .absoluteX)]
  | .asl => [
      (0x06, .zeroPage), (0x0A, .accumulator), (0x0E, .absolute), (0x16, .zeroPageX),
      (0x1E, .absoluteX)]
  | .bcc => [(0x90, .relative)]
  | .bcs => [(0xB0, .relative)]
  | .beq => [(0xF0, .relative)]
  | .bit => [(0x24, .zeroPage), (0x2C, .absolute)]
  | .bmi => [(0x30, .relative)]
  | .bne => [(0xD0, .relative)]
  | .bpl => [(0x10, .relative)]
  | .brk => [(0x00, .implied)]
  | .bvc => [(0x50, .relative)]
  | .bvs => [(0x70, .relative)]
  | .clc => [(0x18, .implied)]
  | .cld => [(0xD8, .implied)]
  | .cli => [(0x58, .implied)]
  | .clv => [(0xB8, .implied)]
  | .cmp => [
      (0xC1, .indexedIndirect), (0xC5, .zeroPage), (0xC9, .immediate), (0xCD, .absolute),
      (0xD1, .indirectIndexed), (0xD5, .zeroPageX), (0xD9, .absoluteY), (0xDD, .absoluteX)]
  | .cpx => [(0xE0, .immediate), (0xE4, .zeroPage), (0xEC, .absolute)]
  | .cpy => [(0xC0, .immediate), (0xC4, .zeroPage), (0xCC, .absolute)]
  | .dec => [(0xC6, .zeroPage), (0xCE, .absolute), (0xD6, .zeroPageX), (0xDE, .absoluteX)]
  | .dex => [(0xCA, .implied)]
  | .dey => [(0x88, .implied)]
  | .eor => [
      (0x41, .indexedIndirect), (0x45, .zeroPage), (0x49, .immediate), (0x4D, .absolute),
      (0x51, .indirectIndexed), (0x55, .zeroPageX), (0x59, .absoluteY), (0x5D, .absoluteX)]
  | .inc => [(0xE6, .zeroPage), (0xEE, .absolute), (0xF6, .zeroPageX), (0xFE, .absoluteX)]
  | .inx => [(0xE8, .implied)]
  | .iny => [(0xC8, .implied)]
  | .jmp => [(0x4C, .absolute), (0x6C, .indirect)]
  | .jsr => [(0x20, .absolute)]
  | .lda => [
      (0xA1, .indexedIndirect), (0xA5, .zeroPage), (0xA9, .immediate), (0xAD, .absolute),
      (0xB1, .indirectIndexed), (0xB5, .zeroPageX), (0xB9, .absoluteY), (0xBD, .absoluteX)]
  | .ldx => [
      (0xA2, .immediate), (0xA6, .zeroPage), (0xAE, .absolute), (0xB6, .zeroPageY),
      (0xBE, .absoluteY)]
  | .ldy => [
      (0xA0, .immediate), (0xA4, .zeroPage), (0xAC, .absolute), (0xB4, .zeroPageX),
      (0xBC, .absoluteX)]
  | .lsr => [
      (0x46, .zeroPage), (0x4A, .accumulator), (0x4E, .absolute), (0x56, .zeroPageX),
      (0x5E, .absoluteX)]
  | .nop => [
      (0x1A, .implied), (0x3A, .implied), (0x5A, .implied), (0x7A, .implied),
      (0xDA, .implied), (0xEA, .implied), (0xFA, .implied)]
  | .ora => [
      (0x01, .indexedIndirect), (0x05, .zeroPage), (0x09, .immediate), (0x0D, .absolute),
      (0x11, .indirectIndexed), (0x15, .zeroPageX), (0x19, .absoluteY), (0x1D, .absoluteX)]
  | .pha => [(0x48, .implied)]
  | .php => [(0x08, .implied)]
  | .pla => [(0x68, .implied)]
  | .plp => [(0x28, .implied)]
  | .rol => [
      (0x26, .zeroPage), (0x2A, .accumulator), (0x2E, .absolute), (0x36, .zeroPageX),
      (0x3E, .absoluteX)]
  | .ror => [
      (0x66, .zeroPage), (0x6A, .accumulator), (0x6E, .absolute), (0x76, .zeroPageX),
      (0x7E, .absoluteX)]
  | .rti => [(0x40, .implied)]
  | .rts => [(0x60, .implied)]
  | .sbc => [
      (0xE1, .indexedIndirect), (0xE5, .zeroPage), (0xE9, .immediate), (0xEB, .immediate),
      (0xED, .absolute), (0xF1, .indirectIndexed), (0xF5, .zeroPageX), (0xF9, .absoluteY),
      (0xFD, .absoluteX)]
  | .sec => [(0x38, .implied)]
  | .sed => [(0xF8, .implied)]
  | .sei => [(0x78, .implied)]
  | .sta => [
      (0x81, .indexedIndirect), (0x85, .zeroPage), (0x8D, .absolute), (0x91, .indirectIndexed),
      (0x95, .zeroPageX), (0x99, .absoluteY), (0x9D, .absoluteX)]
  | .stx => [(0x86, .zeroPage), (0x8E, .absolute), (0x96, .zeroPageY)]
  | .sty => [(0x84, .zeroPage), (0x8C, .absolute), (0x94, .zeroPageX)]
  | .tax => [(0xAA, .implied)]
  | .tay => [(0xA8, .implied)]
  | .tsx => [(0xBA, .implied)]
  | .txa => [(0x8A, .implied)]
  | .txs => [(0x9A, .implied)]
  | .tya => [(0x98, .implied)]
  | .aac => [(0x0B, .immediate), (0x2B, .immediate)]
  | .aax => [(0x83, .indexedIndirect), (0x87, .zeroPage), (0x8F, .absolute), (0x97, .zeroPageY)]
  | .arr => [(0x6B, .immediate)]
  | .asr => [(0x4B, .immediate)]
  | .atx => [(0xAB, .immediate)]
  | .axa => [(0x93, .indirectIndexed), (0x9F, .absoluteY)]
  | .axs => [(0xCB, .immediate)]
  | .dcp => [
      (0xC3, .indexedIndirect), (0xC7, .zeroPage), (0xCF, .absolute), (0xD3, .indirectIndexed),
      (0xD7, .zeroPageX), (0xDB, .absoluteY), (0xDF, .absoluteX)]
  | .dop => [
      (0x04, .zeroPage), (0x14, .zeroPageX), (0x34, .zeroPageX), (0x44, .zeroPage),
      (0x54, .zeroPageX), (0x64, .zeroPage), (0x74, .zeroPageX), (0x80, .immediate),
      (0x82, .immediate), (0x89, .immediate), (0xC2, .immediate), (0xD4, .zeroPageX),
      (0xE2, .immediate), (0xF4, .zeroPageX)]
  | .isc => [
      (0xE3, .indexedIndirect), (0xE7, .zeroPage), (0xEF, .absolute), (0xF3, .indirectIndexed),
      (0xF7, .zeroPageX), (0xFB, .absoluteY), (0xFF, .absoluteX)]
  | .kil => [
      (0x02, .implied), (0x12, .implied), (0x22, .implied), (0x32, .implied),
      (0x42, .implied), (0x52, .implied), (0x62, .implied), (0x72, .implied),
      (0x92, .implied), (0xB2, .implied), (0xD2, .implied), (0xF2, .implied)]
  | .lar => [(0xBB, .absoluteY)]
  | .lax => [
      (0xA3, .indexedIndirect), (0xA7, .zeroPage), (0xAF, .absolute), (0xB3, .indirectIndexed),
      (0xB7, .zeroPageY), (0xBF, .absoluteY)]
  | .rla => [
      (0x23, .indexedIndirect), (0x27, .zeroPage), (0x2F, .absolute), (0x33, .indirectIndexed),
      (0x37, .zeroPageX), (0x3B, .absoluteY), (0x3F, .absoluteX)]
  | .rra => [
      (0x63, .indexedIndirect), (0x67, .zeroPage), (0x6F, .absolute), (0x73, .indirectIndexed),
      (0x77, .zeroPageX), (0x7B, .absoluteY), (0x7F, .absoluteX)]
  | .slo => [
      (0x03, .indexedIndirect), (0x07, .zeroPage), (0x0F, .absolute), (0x13, .indirectIndexed),
      (0x17, .zeroPageX), (0x1B, .absoluteY), (0x1F, .absoluteX)]
  | .sre => [
      (0x43, .indexedIndirect), (0x47, .zeroPage), (0x4F, .absolute), (0x53, .indirectIndexed),
      (0x57, .zeroPageX), (0x5B, .absoluteY), (0x5F, .absoluteX)]
  | .sxa => [(0x9E, .absoluteY)]
  | .sya => [(0x9C, .absoluteX)]
  | .top => [
      (0x0C, .absolute), (0x1C, .absoluteX), (0x3C, .absoluteX), (0x5C, .absoluteX),
      (0x7C, .absoluteX), (0xDC, .absoluteX), (0xFC, .absoluteX)]
  | .xaa => [(0x8B, .immediate)]
  | .xas => [(0x9B, .absoluteY)]

/-- The 22 undocumented tags (R270). -/
def Tag.undocumented : Tag → Bool
  | .aac | .aax | .arr | .asr | .atx | .axa | .axs | .dcp | .dop | .isc | .kil | .lar | .lax | .rla | .rra | .slo
  | .sre | .sxa | .sya | .top | .xaa | .xas => true
  | .adc | .and | .asl | .bcc | .bcs | .beq | .bit | .bmi | .bne | .bpl | .brk | .bvc | .bvs | .clc | .cld | .cli
  | .clv | .cmp | .cpx | .cpy | .dec | .dex | .dey | .eor | .inc | .inx | .iny | .jmp | .jsr | .lda | .ldx | .ldy
  | .lsr | .nop | .ora | .pha | .php | .pla | .plp | .rol | .ror | .rti | .rts | .sbc | .sec | .sed | .sei | .sta
  | .stx | .sty | .tax | .tay | .tsx | .txa | .txs | .tya => false

end Sys2Proof
end

