-- ==== Sys2Proof/WellFormed.lean ====
section
/-! DEFINITION. Which instruction terms stand for a row of the opcode table: the tag has the addressing mode, and a carried
opcode byte is one of the tag's bytes in that mode (30_encoding.md R85). -/

namespace Sys2Proof

/-- The tag has the operand's addressing mode (R85). -/
def Instr.modeLegal (i : Instr) : Bool := i.tag.opcodes.any fun e => e.2 == i.mode

/-- A carried opcode byte belongs to the tag in this mode (R85). -/
def Instr.byteLegal (i : Instr) : Bool :=
  match i.carriedByte with
  | none => true
  | some opc => i.tag.opcodes.contains (opc, i.mode)

/-- The checks together. -/
def Instr.wellFormed (i : Instr) : Bool := i.modeLegal && i.byteLegal

/-- An instruction that stands for a row of the opcode table. -/
abbrev Instr.WellFormed (i : Instr) : Prop := i.wellFormed = true

end Sys2Proof
end

