-- ==== Sys2Proof/Decode.lean ====
section
/-! DEFINITION. The decoder (30_encoding.md R80–R83, R88), total on any bytes, and after it the encoder, written from the
per-tag opcode list of R85. -/

namespace Sys2Proof

/-- Why a byte list is no instruction. Every opcode byte is defined (R83, R87), so bytes can only be missing. -/
inductive DecodeError where
  /-- fewer bytes than the instruction's length; safe: no instruction is made up -/
  | truncated
  deriving DecidableEq, Repr

/-- R82: the operand of a mode from the first and second byte after the opcode; unused bytes are ignored. -/
def operandOf (m : Mode) (b1 b2 : Byte) : Operand :=
  match m with
  | .implied => .implied
  | .accumulator => .accumulator
  | .immediate => .immediate b1
  | .zeroPage => .zeroPage b1
  | .absolute => .absolute (word b2 b1)
  | .relative => .relative b1
  | .zeroPageX => .zeroPageX b1
  | .zeroPageY => .zeroPageY b1
  | .absoluteX => .absoluteX (word b2 b1)
  | .absoluteY => .absoluteY (word b2 b1)
  | .indirect => .indirect (word b2 b1)
  | .indexedIndirect => .indexedIndirect b1
  | .indirectIndexed => .indirectIndexed b1

/-- The instruction of a table cell: its tag, its opcode byte, and the operand bytes read in its mode. -/
def build (t : Tag) (opc : Byte) (m : Mode) (b1 b2 : Byte) : Instr :=
  match t with
  | .lda => .lda (operandOf m b1 b2)
  | .ldx => .ldx (operandOf m b1 b2)
  | .ldy => .ldy (operandOf m b1 b2)
  | .sta => .sta (operandOf m b1 b2)
  | .stx => .stx (operandOf m b1 b2)
  | .sty => .sty (operandOf m b1 b2)
  | .adc => .adc (operandOf m b1 b2)
  | .sbc => .sbc (operandOf m b1 b2) (opc == 0xEB#8)
  | .cmp => .cmp (operandOf m b1 b2)
  | .cpx => .cpx (operandOf m b1 b2)
  | .cpy => .cpy (operandOf m b1 b2)
  | .and => .and (operandOf m b1 b2)
  | .ora => .ora (operandOf m b1 b2)
  | .eor => .eor (operandOf m b1 b2)
  | .bit => .bit (operandOf m b1 b2)
  | .asl => .asl (operandOf m b1 b2)
  | .lsr => .lsr (operandOf m b1 b2)
  | .rol => .rol (operandOf m b1 b2)
  | .ror => .ror (operandOf m b1 b2)
  | .inc => .inc (operandOf m b1 b2)
  | .dec => .dec (operandOf m b1 b2)
  | .inx => .inx
  | .dex => .dex
  | .iny => .iny
  | .dey => .dey
  | .bcc => .bcc b1
  | .bcs => .bcs b1
  | .beq => .beq b1
  | .bne => .bne b1
  | .bmi => .bmi b1
  | .bpl => .bpl b1
  | .bvc => .bvc b1
  | .bvs => .bvs b1
  | .jmp => .jmp (operandOf m b1 b2)
  | .jsr => .jsr (word b2 b1)
  | .rts => .rts
  | .brk => .brk
  | .rti => .rti
  | .pha => .pha
  | .pla => .pla
  | .php => .php
  | .plp => .plp
  | .clc => .clc
  | .sec => .sec
  | .cld => .cld
  | .sed => .sed
  | .cli => .cli
  | .sei => .sei
  | .clv => .clv
  | .tax => .tax
  | .tay => .tay
  | .tsx => .tsx
  | .txa => .txa
  | .txs => .txs
  | .tya => .tya
  | .nop => .nop opc
  | .aac => .aac opc b1
  | .aax => .aax (operandOf m b1 b2)
  | .arr => .arr b1
  | .asr => .asr b1
  | .atx => .atx b1
  | .axa => .axa (operandOf m b1 b2)
  | .axs => .axs b1
  | .dcp => .dcp (operandOf m b1 b2)
  | .dop => .dop opc (operandOf m b1 b2)
  | .isc => .isc (operandOf m b1 b2)
  | .kil => .kil opc
  | .lar => .lar (word b2 b1)
  | .lax => .lax (operandOf m b1 b2)
  | .rla => .rla (operandOf m b1 b2)
  | .rra => .rra (operandOf m b1 b2)
  | .slo => .slo (operandOf m b1 b2)
  | .sre => .sre (operandOf m b1 b2)
  | .sxa => .sxa (word b2 b1)
  | .sya => .sya (word b2 b1)
  | .top => .top opc (operandOf m b1 b2)
  | .xaa => .xaa b1
  | .xas => .xas (word b2 b1)

/-- R83, R88: the instruction whose opcode byte is `b0`, followed by `b1` and `b2`, of which it uses as many as its length
says. Total: every opcode byte is defined (R112). -/
def decodeBytes (b0 b1 b2 : Byte) : Instr := build (lookup b0).tag b0 (lookup b0).mode b1 b2

/-- The decoder over a byte list: the instruction and the bytes after it, or the error's name. -/
def decode : List Byte → Except DecodeError (Instr × List Byte)
  | [] => .error .truncated
  | b0 :: rest =>
    match (lookup b0).mode.operandBytes, rest with
    | 0, rest => .ok (decodeBytes b0 0 0, rest)
    | 1, b1 :: rest => .ok (decodeBytes b0 b1 0, rest)
    | 2, b1 :: b2 :: rest => .ok (decodeBytes b0 b1 b2, rest)
    | _, _ => .error .truncated

/-- The bytes after the opcode, low byte first (R80, R82). -/
def Operand.bytes : Operand → List Byte
  | .implied | .accumulator => []
  | .immediate b | .zeroPage b | .relative b | .zeroPageX b | .zeroPageY b | .indexedIndirect b | .indirectIndexed b => [b]
  | .absolute w | .absoluteX w | .absoluteY w | .indirect w => [lo w, hi w]

/-- The first opcode that R85 lists for the tag in the mode; 0 where the tag has no such mode. -/
def Tag.opcodeIn (t : Tag) (m : Mode) : Byte := ((t.opcodes.find? fun e => e.2 == m).map Prod.fst).getD 0

/-- The opcode byte of an instruction: the one it carries, or the tag's byte in its mode. -/
def Instr.opcode (i : Instr) : Byte := i.carriedByte.getD (i.tag.opcodeIn i.mode)

/-- The bytes of an instruction in address order (R80). -/
def encode (i : Instr) : List Byte := i.opcode :: i.operand.bytes

/-- The length of an instruction in bytes. -/
def Instr.length (i : Instr) : Nat := i.mode.length

/-- The first byte of a number laid out with its least significant byte at the lowest address. -/
def tableByte (nbits w k : Nat) : Byte := BitVec.ofNat 8 ((w % 2 ^ nbits) / 2 ^ (8 * k))

/-- The instruction the decoder reads from the bits `w` of an opcode-table row, bit 0 the lowest of the first byte, every
bit from `nbits` on being 0. -/
def decodeTableWord (nbits w : Nat) : Option Instr :=
  match decode [tableByte nbits w 0, tableByte nbits w 1, tableByte nbits w 2] with
  | .ok (i, _) => some i
  | .error _ => none

end Sys2Proof
end

