-- ==== Sys2Proof/Machine/Flags.lean ====
section
/-! DEFINITION. The status byte's fields and every flag computation of the spec: the accessors of 10_state.md R24–R27, SetZN
of 00_scope.md R13, ADC and SBC (42_arithmetic_compare.md R160, R161, R165), compares (R162), shifts and rotates
(44_shift_incdec.md R190–R193), and the masks of a status push and pull (R27). -/

namespace Sys2Proof.Machine

/-- The six flags of R24. Bits 4 and 5 of P are no flags. -/
inductive Flag where
  | C | Z | I | D | V | N
  deriving DecidableEq, Repr

/-- The bit of P that holds a flag (R24). -/
def Flag.pos : Flag → Nat
  | .C => 0
  | .Z => 1
  | .I => 2
  | .D => 3
  | .V => 6
  | .N => 7

/-- R27: reading flag f is `(P >> pos(f)) & 1`. -/
def getFlag (p : Byte) (f : Flag) : Bool := p.getLsbD f.pos

/-- R27: writing flag f to b is `P <- (P & ~(1 << pos(f))) | (b << pos(f))`. -/
def setFlag (p : Byte) (f : Flag) (b : Bool) : Byte :=
  (p &&& ~~~(1#8 <<< f.pos)) ||| ((BitVec.ofBool b).setWidth 8 <<< f.pos)

/-- `SetZN(r)` of R13. -/
def setZN (p r : Byte) : Byte := setFlag (setFlag p .Z (r == 0#8)) .N (r.getLsbD 7)

/-- R27: the byte a status push stores, the two non-existent bits forced to 1. -/
def statusPushed (p : Byte) : Byte := p ||| 0x30#8

/-- R27: the status after pulling `v`: the two non-existent bits keep their value. -/
def statusPulled (p v : Byte) : Byte := (v &&& 0xCF#8) ||| (p &&& 0x30#8)

/-- A result with carry and overflow. -/
structure AluResult where
  value    : Byte
  carry    : Bool
  overflow : Bool
  deriving DecidableEq, Repr

/-- R160: A + m + C in a widened integer; D is not read (R166). -/
def addWithCarry (a m : Byte) (c : Bool) : AluResult :=
  let r : Nat := a.toNat + m.toNat + c.toNat
  let t : Byte := BitVec.ofNat 8 r
  { value    := t
    carry    := decide (r > 0xFF)
    overflow := !((a ^^^ m).getLsbD 7) && (t ^^^ a).getLsbD 7 }

/-- R161: A - m - (1 - C) in a widened signed integer; D is not read (R166). -/
def subWithBorrow (a m : Byte) (c : Bool) : AluResult :=
  let r : Int := (a.toNat : Int) - (m.toNat : Int) - (1 - (c.toNat : Int))
  let t : Byte := BitVec.ofInt 8 r
  { value    := t
    carry    := decide (r ≥ 0)
    overflow := (a ^^^ m).getLsbD 7 && (t ^^^ a).getLsbD 7 }

/-- R162: the status after comparing a register with m: C from the unsigned compare, Z and N from the truncated
difference. -/
def compareStatus (p reg m : Byte) : Byte :=
  let d : Int := (reg.toNat : Int) - (m.toNat : Int)
  setZN (setFlag p .C (decide (m.toNat ≤ reg.toNat))) (BitVec.ofInt 8 d)

/-- R183: the status after BIT: Z from `A & m`, V and N from bits 6 and 7 of m. -/
def bitStatus (p a m : Byte) : Byte :=
  setFlag (setFlag (setFlag p .Z ((a &&& m) == 0#8)) .V (m.getLsbD 6)) .N (m.getLsbD 7)

/-- A shifted byte and the bit shifted off. -/
structure ShiftResult where
  value : Byte
  carry : Bool
  deriving DecidableEq, Repr

/-- R190. -/
def shiftLeft (v : Byte) : ShiftResult := ⟨v <<< 1, v.getLsbD 7⟩

/-- R191. -/
def shiftRight (v : Byte) : ShiftResult := ⟨v >>> 1, v.getLsbD 0⟩

/-- R192: the old carry goes into bit 0. -/
def rotateLeft (c : Bool) (v : Byte) : ShiftResult := ⟨(v <<< 1) ||| (BitVec.ofBool c).setWidth 8, v.getLsbD 7⟩

/-- R193: the old carry goes into bit 7. -/
def rotateRight (c : Bool) (v : Byte) : ShiftResult :=
  ⟨(v >>> 1) ||| ((BitVec.ofBool c).setWidth 8 <<< 7), v.getLsbD 0⟩

/-- The status after a shift or rotate: C the bit shifted off, Z and N from the result. -/
def shiftStatus (p : Byte) (r : ShiftResult) : Byte := setZN (setFlag p .C r.carry) r.value

/-- The status after ADC or SBC: C, V, Z and N from the result. -/
def aluStatus (p : Byte) (r : AluResult) : Byte := setZN (setFlag (setFlag p .C r.carry) .V r.overflow) r.value

end Sys2Proof.Machine
end

