-- ==== Sys2Proof/Config.lean ====
section
/-! DEFINITION. What an implementation fixes: the constants of 00_scope.md R8 and the one OPEN parameter of the core. -/

namespace Sys2Proof.Config

/-- OPEN (R8, R122, D11): whether JMP indirect reads the high byte of its target from the pointer's own page.
The spec forbids fixing either value in a proof that does not take the parameter, so it has no body here (log 2). -/
opaque jmpIndirectPageWrap : Bool

/-- R8, R32: PC after reset, a constant and not a vector read (R351). -/
def resetPC : Word := 0xC000#16

/-- R8, R32: SP after reset. -/
def resetSP : Byte := 0xFD#8

/-- R8, R32: P after reset: I and the two non-existent bits. -/
def resetP : Byte := 0x34#8

/-- R8, R60: where the BRK vector is stored. -/
def brkVector : Word := 0xFFFE#16

/-- R8, R335: the tolerance of `test` when none is given. -/
def harnessTolerance : Int := 1

end Sys2Proof.Config
end

