-- ==== Sys2Proof/Machine/State.lean ====
section
/-! DEFINITION. The state of the core and its bus (10_state.md R20–R33, 20_memory.md R51), its value at reset (R32, R350),
and the reasons a step can stop. -/

namespace Sys2Proof.Machine

/-- The contents of the bus's 65,536 bytes (R51): the bytes that differ from what an unlisted address reads as, by rising
address. -/
abbrev Memory := List Host.Cell

/-- What a step returns to the host (00_scope.md R14, R16): `ok`, or the tag and opcode byte of an undocumented opcode. -/
inductive StepOutcome where
  | ok
  | unimplemented (tag : Tag) (opcode : Byte)
  deriving DecidableEq, Repr

/-- Every piece of state the spec gives the machine (R20, R30, R31, R51). -/
structure State where
  /-- program counter (R28) -/
  pc     : Word
  /-- stack pointer; the stack byte it names is at `0x0100 + SP` (R23) -/
  sp     : Byte
  /-- accumulator (R21) -/
  a      : Byte
  /-- index register X (R22) -/
  x      : Byte
  /-- index register Y (R22) -/
  y      : Byte
  /-- status register, packed (R24) -/
  p      : Byte
  /-- clock counter (R30) -/
  clock  : Nat
  /-- the first undocumented opcode executed, if any (R31) -/
  unimpl : Option (Tag × Byte)
  /-- the bus's memory (R51, R52) -/
  mem    : Memory
  deriving DecidableEq, Repr

/-- The machine right after reset (R32, R350), with nothing listed in memory (R352: its content is the parameter memInit;
log 1). -/
def State.reset : State where
  pc     := Config.resetPC
  sp     := Config.resetSP
  a      := 0x00#8
  x      := 0x00#8
  y      := 0x00#8
  p      := Config.resetP
  clock  := 0
  unimpl := none
  mem    := []

/-- Faults. There is none: "The core raises no exception" (R14), every address exists (R55, R61) and every opcode byte is
defined (R112). -/
inductive Fault : Type
  deriving DecidableEq, Repr

/-- Refusals. -/
inductive Refusal where
  /-- raised by an arm of exec whose instruction has no meaning yet; safe: the machine stops. No arm raises it. -/
  | notModelled (mnemonic : String)
  deriving DecidableEq, Repr

end Sys2Proof.Machine
end

