-- ==== Sys2Proof/Machine/Ops.lean ====
section
/-! DEFINITION. The named operations over memory and registers: the bus of 20_memory.md R50, the register writes, the stack
manager (40_fetch_and_addressing.md R130–R133), entering and leaving the BRK handler (60_exceptions.md R306, R307), the
unimplemented outcome (R301), and the parts of a step around execution (R110). -/

namespace Sys2Proof.Machine

/-! Memory as a list of cells -/

/-- What an address that no cell lists reads as (D26 leaves it open; log 1). -/
def Memory.unlisted : Byte := 0x00#8

/-- The byte at an address. -/
def Memory.read : Memory → Nat → Byte
  | [], _ => Memory.unlisted
  | (b, v) :: m, a => if b = a then v else Memory.read m a

/-- The cells of every other address. -/
def Memory.erase : Memory → Nat → Memory
  | [], _ => []
  | (b, v) :: m, a => if b = a then Memory.erase m a else (b, v) :: Memory.erase m a

/-- One more cell, before the first cell of a higher address. -/
def Memory.insert : Memory → Nat → Byte → Memory
  | [], a, v => [(a, v)]
  | (b, w) :: m, a, v => if a < b then (a, v) :: (b, w) :: m else (b, w) :: Memory.insert m a v

/-- Memory with one byte replaced; a byte equal to the unlisted one is not listed. -/
def Memory.write (m : Memory) (a : Nat) (v : Byte) : Memory :=
  if v = Memory.unlisted then m.erase a else (m.erase a).insert a v

/-- Every cell is above `low`, and the cells rise strictly. -/
def Memory.risesFrom : Nat → Memory → Bool
  | _, [] => true
  | low, (a, _) :: m => decide (low ≤ a) && Memory.risesFrom (a + 1) m

/-- The canonical form: addresses strictly rising and inside the 64 KiB space, no cell equal to the unlisted byte. -/
def Memory.wf (m : Memory) : Bool :=
  m.risesFrom 0 && m.all fun c => decide (c.1 < 0x10000) && decide (c.2 ≠ Memory.unlisted)

/-! The bus (R50) -/

/-- `read(a)`: no side effect (R52). -/
def State.read (s : State) (a : Word) : Byte := s.mem.read a.toNat

/-- `read16(a)`: little-endian, the second address wrapping modulo 65536 (R12, R54). -/
def State.read16 (s : State) (a : Word) : Word := word (s.read (a + 1#16)) (s.read a)

/-- `zero_page_read16(p)`: both bytes from page 0 with 8-bit wraparound (R12, R53). -/
def State.zpRead16 (s : State) (p : Byte) : Word := word (s.read (zext16 (p + 1#8))) (s.read (zext16 p))

/-- `write(a, v)`: changes nothing else (R52). -/
def State.write (s : State) (a : Word) (v : Byte) : State := { s with mem := s.mem.write a.toNat v }

/-! Registers (R11) -/

/-- `PC <- v`. -/
def State.withPC (s : State) (v : Word) : State := { s with pc := v }

/-- `SP <- v`. -/
def State.withSP (s : State) (v : Byte) : State := { s with sp := v }

/-- `A <- v`. -/
def State.withA (s : State) (v : Byte) : State := { s with a := v }

/-- `X <- v`. -/
def State.withX (s : State) (v : Byte) : State := { s with x := v }

/-- `Y <- v`. -/
def State.withY (s : State) (v : Byte) : State := { s with y := v }

/-- `P <- v`. -/
def State.withP (s : State) (v : Byte) : State := { s with p := v }

/-- Reading a flag of the live status. -/
def State.flag (s : State) (f : Flag) : Bool := getFlag s.p f

/-- Writing one flag of the live status. -/
def State.withFlag (s : State) (f : Flag) (b : Bool) : State := s.withP (setFlag s.p f b)

/-- `SetZN(r)` on the live status. -/
def State.withZN (s : State) (r : Byte) : State := s.withP (setZN s.p r)

/-! The stack manager -/

/-- R130: the byte is written at the current SP, then SP is decremented. -/
def State.push (s : State) (v : Byte) : State := (s.write (stackAddr s.sp) v).withSP (s.sp - 1#8)

/-- R131: the byte a pull returns, read after SP is incremented. -/
def State.pulled (s : State) : Byte := s.read (stackAddr (s.sp + 1#8))

/-- R131: the state after a pull; memory is unchanged. -/
def State.afterPull (s : State) : State := s.withSP (s.sp + 1#8)

/-- R132: the high byte is pushed first. -/
def State.push16 (s : State) (v : Word) : State := (s.push (hi v)).push (lo v)

/-- R133: the word two pulls return, the low byte first. -/
def State.pulled16 (s : State) : Word := word s.afterPull.pulled s.pulled

/-- R133: the state after the two pulls. -/
def State.afterPull16 (s : State) : State := s.afterPull.afterPull

/-! Trap entry and return -/

/-- R223, R306: entering the BRK handler from the state whose PC is the next instruction's address: PC - 1 is pushed, PC is
loaded from the vector, the status is pushed with bits 4 and 5 set, and I is set. -/
def State.trapEntry (s : State) : State :=
  let s1 := s.push16 (s.pc - 1#16)
  let s2 := s1.withPC (s1.read16 Config.brkVector)
  let s3 := s2.push (statusPushed s2.p)
  s3.withFlag .I true

/-- R224, R307: leaving it: the status is pulled, except bits 4 and 5, then PC, with no adjustment. -/
def State.trapReturn (s : State) : State :=
  let s1 := s.afterPull.withP (statusPulled s.p s.pulled)
  s1.afterPull16.withPC s1.pulled16

/-! The unimplemented outcome -/

/-- The outcome of an instruction, fixed by its tag alone (R301, R305). -/
def outcomeOf (i : Instr) : StepOutcome := if i.tag.undocumented then .unimplemented i.tag i.opcode else .ok

/-- R270, R301: `raise Unimplemented(tag, opcode)` changes nothing but the mark, which keeps the first one (R31; log 4). -/
def State.raiseUnimplemented (s : State) (i : Instr) : State :=
  { s with unimpl := s.unimpl.or (some (i.tag, i.opcode)) }

/-! The parts of a step (R110) -/

/-- The instruction at PC: the opcode byte is read, then as many operand bytes as its mode has, each address wrapping
(R110, R111). The bytes `decodeBytes` is not given are ones its mode ignores (log 7). -/
def State.fetchInstr (s : State) : Instr :=
  match (lookup (s.read s.pc)).mode.operandBytes with
  | 0 => decodeBytes (s.read s.pc) 0 0
  | 1 => decodeBytes (s.read s.pc) (s.read (s.pc + 1#16)) 0
  | _ => decodeBytes (s.read s.pc) (s.read (s.pc + 1#16)) (s.read (s.pc + 2#16))

/-- The fixed cost of the opcode at PC (R86). -/
def State.fetchCycles (s : State) : Nat := (lookup (s.read s.pc)).cycles

/-- What the step from this state returns to the host (R110, R305). -/
def State.stepOutcome (s : State) : StepOutcome := outcomeOf s.fetchInstr

/-- PC after the fetch and the resolver: the next sequential instruction (R28, R111). -/
def State.enter (s : State) : State := s.withPC (s.pc + BitVec.ofNat 16 (lookup (s.read s.pc)).mode.length)

/-- R110, R311: the clock advances after execution. -/
def State.tick (s : State) (cycles : Nat) : State := { s with clock := s.clock + cycles }

/-- Execution's answer with the clock advanced. -/
def finish (cycles : Nat) : Host.Outcome State Fault Refusal → Host.Outcome State Fault Refusal
  | .next t => .next (t.tick cycles)
  | .fault r => .fault r
  | .refused r => .refused r

end Sys2Proof.Machine
end

