-- ==== Sys2Proof/Machine/Operands.lean ====
section
/-! DEFINITION. The address resolver (40_fetch_and_addressing.md R113–R124) and the operand reads and writes built on it. The
state these functions take is the one the handler sees: PC is already the address of the next instruction (R110). -/

namespace Sys2Proof.Machine

/-- R122: where the high byte of an indirect target is read. With `wrap` it comes from the pointer's own page; the two
settings differ only for a pointer that ends in FF. -/
def indirectHigh (wrap : Bool) (ptr : Word) : Word :=
  if lo ptr == 0xFF#8 && wrap then word (hi ptr) (lo ptr + 1#8) else ptr + 1#16

/-- R122: the target word at the pointer, under either setting of the OPEN parameter. -/
def indirectTarget (wrap : Bool) (ptr : Word) (s : State) : Word := word (s.read (indirectHigh wrap ptr)) (s.read ptr)

/-- `noMem` (R29, R113): the operand is a register, not a memory cell. -/
def noMem : Operand → Bool
  | .implied | .accumulator => true
  | _ => false

/-- `ea`, the resolved address (R113–R124). -/
def resolve (op : Operand) (s : State) : Word :=
  match op with
  | .implied | .accumulator => 0x0000#16
  | .immediate _ => s.pc - 1#16
  | .zeroPage b => zext16 b
  | .absolute w => w
  | .relative b => s.pc + sext16 b
  | .zeroPageX b => zext16 (b + s.x)
  | .zeroPageY b => zext16 (b + s.y)
  | .absoluteX w => w + zext16 s.x
  | .absoluteY w => w + zext16 s.y
  | .indirect ptr => indirectTarget Config.jmpIndirectPageWrap ptr s
  | .indexedIndirect b => s.zpRead16 (b + s.x)
  | .indirectIndexed b => s.zpRead16 b + zext16 s.y

/-- `m <- MemRead(ea, 1)`: the operand byte. In Immediate mode it is the instruction's own operand byte, which is what the
bus holds at `ea` when the instruction was fetched there (R114; log 6). -/
def operandByte (op : Operand) (s : State) : Byte :=
  match op with
  | .immediate b => b
  | _ => s.read (resolve op s)

/-- `noMem ? A : MemRead(ea, 1)`: what a shift reads (R190). -/
def shiftOperand (op : Operand) (s : State) : Byte := if noMem op then s.a else operandByte op s

/-- `if noMem: A <- r else: MemWrite(ea, 1, r)`: where a shift puts its result (R190), the address resolved in `s`. -/
def writeShifted (op : Operand) (r : Byte) (s : State) : State := if noMem op then s.withA r else s.write (resolve op s) r

end Sys2Proof.Machine
end

