-- ==== Sys2Proof/Machine/Arithmetic.lean ====
section
/-! DEFINITION. Arithmetic and compare instructions, 42_arithmetic_compare.md R160–R166. -/

namespace Sys2Proof.Machine

/-- A and the status take a sum or difference (R160, R161). -/
def State.withAlu (s : State) (r : AluResult) : State := (s.withA r.value).withP (aluStatus s.p r)

/-- ADC (R160); binary whatever D is (R166). -/
def execAdc (op : Operand) (s : State) : Host.Outcome State Fault Refusal :=
  .next (s.withAlu (addWithCarry s.a (operandByte op s) (s.flag .C)))

/-- SBC (R161); the byte EB executes the same way (47_undocumented.md R294). -/
def execSbc (op : Operand) (s : State) : Host.Outcome State Fault Refusal :=
  .next (s.withAlu (subWithBorrow s.a (operandByte op s) (s.flag .C)))

/-- CMP (R162). -/
def execCmp (op : Operand) (s : State) : Host.Outcome State Fault Refusal :=
  .next (s.withP (compareStatus s.p s.a (operandByte op s)))

/-- CPX (R163). -/
def execCpx (op : Operand) (s : State) : Host.Outcome State Fault Refusal :=
  .next (s.withP (compareStatus s.p s.x (operandByte op s)))

/-- CPY (R164). -/
def execCpy (op : Operand) (s : State) : Host.Outcome State Fault Refusal :=
  .next (s.withP (compareStatus s.p s.y (operandByte op s)))

end Sys2Proof.Machine
end

