-- ==== Sys2Proof/Machine/Control.lean ====
section
/-! DEFINITION. Branches, jumps, calls, BRK and RTI, 45_control_transfer.md R210–R226. PC is the next instruction's address
when a meaning starts. -/

namespace Sys2Proof.Machine

/-- R210: `if cond(P): PC <- ea`. -/
def branchIf (cond : Bool) (off : Byte) (s : State) : State := if cond then s.withPC (resolve (.relative off) s) else s

/-- BCC (R211). -/
def execBcc (off : Byte) (s : State) : Host.Outcome State Fault Refusal := .next (branchIf (!s.flag .C) off s)

/-- BCS (R212). -/
def execBcs (off : Byte) (s : State) : Host.Outcome State Fault Refusal := .next (branchIf (s.flag .C) off s)

/-- BEQ (R213). -/
def execBeq (off : Byte) (s : State) : Host.Outcome State Fault Refusal := .next (branchIf (s.flag .Z) off s)

/-- BNE (R214). -/
def execBne (off : Byte) (s : State) : Host.Outcome State Fault Refusal := .next (branchIf (!s.flag .Z) off s)

/-- BMI (R215). -/
def execBmi (off : Byte) (s : State) : Host.Outcome State Fault Refusal := .next (branchIf (s.flag .N) off s)

/-- BPL (R216). -/
def execBpl (off : Byte) (s : State) : Host.Outcome State Fault Refusal := .next (branchIf (!s.flag .N) off s)

/-- BVC (R217). -/
def execBvc (off : Byte) (s : State) : Host.Outcome State Fault Refusal := .next (branchIf (!s.flag .V) off s)

/-- BVS (R218). -/
def execBvs (off : Byte) (s : State) : Host.Outcome State Fault Refusal := .next (branchIf (s.flag .V) off s)

/-- JMP (R220); the target is always the resolved address (R225). -/
def execJmp (op : Operand) (s : State) : Host.Outcome State Fault Refusal := .next (s.withPC (resolve op s))

/-- JSR (R221): the address of its own last byte is pushed. -/
def execJsr (addr : Word) (s : State) : Host.Outcome State Fault Refusal := .next ((s.push16 (s.pc - 1#16)).withPC addr)

/-- RTS (R222). -/
def execRts (s : State) : Host.Outcome State Fault Refusal := .next (s.afterPull16.withPC (s.pulled16 + 1#16))

/-- BRK (R223, R306). -/
def execBrk (s : State) : Host.Outcome State Fault Refusal := .next s.trapEntry

/-- RTI (R224, R307). -/
def execRti (s : State) : Host.Outcome State Fault Refusal := .next s.trapReturn

end Sys2Proof.Machine
end

