-- ==== Sys2Proof/Machine/LoadStore.lean ====
section
/-! DEFINITION. Load and store instructions, 41_load_store.md R140–R145. -/

namespace Sys2Proof.Machine

/-- LDA (R140). -/
def execLda (op : Operand) (s : State) : Host.Outcome State Fault Refusal :=
  .next ((s.withA (operandByte op s)).withZN (operandByte op s))

/-- LDX (R141). -/
def execLdx (op : Operand) (s : State) : Host.Outcome State Fault Refusal :=
  .next ((s.withX (operandByte op s)).withZN (operandByte op s))

/-- LDY (R142). -/
def execLdy (op : Operand) (s : State) : Host.Outcome State Fault Refusal :=
  .next ((s.withY (operandByte op s)).withZN (operandByte op s))

/-- STA (R143). -/
def execSta (op : Operand) (s : State) : Host.Outcome State Fault Refusal := .next (s.write (resolve op s) s.a)

/-- STX (R144). -/
def execStx (op : Operand) (s : State) : Host.Outcome State Fault Refusal := .next (s.write (resolve op s) s.x)

/-- STY (R145). -/
def execSty (op : Operand) (s : State) : Host.Outcome State Fault Refusal := .next (s.write (resolve op s) s.y)

end Sys2Proof.Machine
end

