-- ==== Sys2Proof/Machine/Logical.lean ====
section
/-! DEFINITION. Logical instructions and BIT, 43_logical_bit.md R180–R183. -/

namespace Sys2Proof.Machine

/-- AND (R180). -/
def execAnd (op : Operand) (s : State) : Host.Outcome State Fault Refusal :=
  .next ((s.withA (s.a &&& operandByte op s)).withZN (s.a &&& operandByte op s))

/-- ORA (R181). -/
def execOra (op : Operand) (s : State) : Host.Outcome State Fault Refusal :=
  .next ((s.withA (s.a ||| operandByte op s)).withZN (s.a ||| operandByte op s))

/-- EOR (R182). -/
def execEor (op : Operand) (s : State) : Host.Outcome State Fault Refusal :=
  .next ((s.withA (s.a ^^^ operandByte op s)).withZN (s.a ^^^ operandByte op s))

/-- BIT (R183). -/
def execBit (op : Operand) (s : State) : Host.Outcome State Fault Refusal :=
  .next (s.withP (bitStatus s.p s.a (operandByte op s)))

end Sys2Proof.Machine
end

