-- ==== Sys2Proof/Machine/ShiftIncDec.lean ====
section
/-! DEFINITION. Shift, rotate, increment and decrement instructions, 44_shift_incdec.md R190–R199. A read-modify-write is one
read and one write of the result (20_memory.md R57, D16). -/

namespace Sys2Proof.Machine

/-- The shape of R190–R193: the operand is shifted, the result goes back where it came from, the status follows. -/
def shiftWith (f : Byte → ShiftResult) (op : Operand) (s : State) : State :=
  (writeShifted op (f (shiftOperand op s)).value s).withP (shiftStatus s.p (f (shiftOperand op s)))

/-- ASL (R190). -/
def execAsl (op : Operand) (s : State) : Host.Outcome State Fault Refusal := .next (shiftWith shiftLeft op s)

/-- LSR (R191). -/
def execLsr (op : Operand) (s : State) : Host.Outcome State Fault Refusal := .next (shiftWith shiftRight op s)

/-- ROL (R192). -/
def execRol (op : Operand) (s : State) : Host.Outcome State Fault Refusal := .next (shiftWith (rotateLeft (s.flag .C)) op s)

/-- ROR (R193). -/
def execRor (op : Operand) (s : State) : Host.Outcome State Fault Refusal := .next (shiftWith (rotateRight (s.flag .C)) op s)

/-- INC (R194). -/
def execInc (op : Operand) (s : State) : Host.Outcome State Fault Refusal :=
  .next ((s.write (resolve op s) (operandByte op s + 1#8)).withZN (operandByte op s + 1#8))

/-- DEC (R195). -/
def execDec (op : Operand) (s : State) : Host.Outcome State Fault Refusal :=
  .next ((s.write (resolve op s) (operandByte op s - 1#8)).withZN (operandByte op s - 1#8))

/-- INX (R196). -/
def execInx (s : State) : Host.Outcome State Fault Refusal := .next ((s.withX (s.x + 1#8)).withZN (s.x + 1#8))

/-- DEX (R197). -/
def execDex (s : State) : Host.Outcome State Fault Refusal := .next ((s.withX (s.x - 1#8)).withZN (s.x - 1#8))

/-- INY (R198). -/
def execIny (s : State) : Host.Outcome State Fault Refusal := .next ((s.withY (s.y + 1#8)).withZN (s.y + 1#8))

/-- DEY (R199). -/
def execDey (s : State) : Host.Outcome State Fault Refusal := .next ((s.withY (s.y - 1#8)).withZN (s.y - 1#8))

end Sys2Proof.Machine
end

