-- ==== Sys2Proof/Machine/StackFlags.lean ====
section
/-! DEFINITION. Stack, flag, transfer and no-operation instructions, 46_stack_flags_transfers.md R240–R262. -/

namespace Sys2Proof.Machine

/-- PHA (R240). -/
def execPha (s : State) : Host.Outcome State Fault Refusal := .next (s.push s.a)

/-- PLA (R241). -/
def execPla (s : State) : Host.Outcome State Fault Refusal := .next ((s.afterPull.withA s.pulled).withZN s.pulled)

/-- PHP (R242): the two non-existent bits are pushed as 1. -/
def execPhp (s : State) : Host.Outcome State Fault Refusal := .next (s.push (statusPushed s.p))

/-- PLP (R243): the two non-existent bits keep their value. -/
def execPlp (s : State) : Host.Outcome State Fault Refusal := .next (s.afterPull.withP (statusPulled s.p s.pulled))

/-- CLC (R245). -/
def execClc (s : State) : Host.Outcome State Fault Refusal := .next (s.withFlag .C false)

/-- SEC (R246). -/
def execSec (s : State) : Host.Outcome State Fault Refusal := .next (s.withFlag .C true)

/-- CLD (R247). -/
def execCld (s : State) : Host.Outcome State Fault Refusal := .next (s.withFlag .D false)

/-- SED (R248). -/
def execSed (s : State) : Host.Outcome State Fault Refusal := .next (s.withFlag .D true)

/-- CLI (R249). -/
def execCli (s : State) : Host.Outcome State Fault Refusal := .next (s.withFlag .I false)

/-- SEI (R250). -/
def execSei (s : State) : Host.Outcome State Fault Refusal := .next (s.withFlag .I true)

/-- CLV (R251). -/
def execClv (s : State) : Host.Outcome State Fault Refusal := .next (s.withFlag .V false)

/-- TAX (R255). -/
def execTax (s : State) : Host.Outcome State Fault Refusal := .next ((s.withX s.a).withZN s.a)

/-- TAY (R256). -/
def execTay (s : State) : Host.Outcome State Fault Refusal := .next ((s.withY s.a).withZN s.a)

/-- TSX (R257). -/
def execTsx (s : State) : Host.Outcome State Fault Refusal := .next ((s.withX s.sp).withZN s.sp)

/-- TXA (R258). -/
def execTxa (s : State) : Host.Outcome State Fault Refusal := .next ((s.withA s.x).withZN s.x)

/-- TXS (R259): the one transfer that writes no flag. -/
def execTxs (s : State) : Host.Outcome State Fault Refusal := .next (s.withSP s.x)

/-- TYA (R260). -/
def execTya (s : State) : Host.Outcome State Fault Refusal := .next ((s.withA s.y).withZN s.y)

/-- NOP (R262): nothing beyond the step's PC and clock advance; the six further bytes of 47_undocumented.md R293 execute the
same way. -/
def execNop (s : State) : Host.Outcome State Fault Refusal := .next s

end Sys2Proof.Machine
end

