-- ==== Sys2Proof/Machine/Undocumented.lean ====
section
/-! DEFINITION. The 22 undocumented tags, 47_undocumented.md R270–R292: the resolver has run and the handler raises the
unimplemented outcome. The step goes on with the mark set; a marked state is never good (Safety.lean; log 4). -/

namespace Sys2Proof.Machine

/-- AAC (R271). -/
def execAac (opc : Byte) (imm : Byte) (s : State) : Host.Outcome State Fault Refusal :=
  .next (s.raiseUnimplemented (.aac opc imm))

/-- AAX (R272). -/
def execAax (op : Operand) (s : State) : Host.Outcome State Fault Refusal :=
  .next (s.raiseUnimplemented (.aax op))

/-- ARR (R273). -/
def execArr (imm : Byte) (s : State) : Host.Outcome State Fault Refusal :=
  .next (s.raiseUnimplemented (.arr imm))

/-- ASR (R274). -/
def execAsr (imm : Byte) (s : State) : Host.Outcome State Fault Refusal :=
  .next (s.raiseUnimplemented (.asr imm))

/-- ATX (R275). -/
def execAtx (imm : Byte) (s : State) : Host.Outcome State Fault Refusal :=
  .next (s.raiseUnimplemented (.atx imm))

/-- AXA (R276). -/
def execAxa (op : Operand) (s : State) : Host.Outcome State Fault Refusal :=
  .next (s.raiseUnimplemented (.axa op))

/-- AXS (R277). -/
def execAxs (imm : Byte) (s : State) : Host.Outcome State Fault Refusal :=
  .next (s.raiseUnimplemented (.axs imm))

/-- DCP (R278). -/
def execDcp (op : Operand) (s : State) : Host.Outcome State Fault Refusal :=
  .next (s.raiseUnimplemented (.dcp op))

/-- DOP (R279). -/
def execDop (opc : Byte) (op : Operand) (s : State) : Host.Outcome State Fault Refusal :=
  .next (s.raiseUnimplemented (.dop opc op))

/-- ISC (R280). -/
def execIsc (op : Operand) (s : State) : Host.Outcome State Fault Refusal :=
  .next (s.raiseUnimplemented (.isc op))

/-- KIL (R281). -/
def execKil (opc : Byte) (s : State) : Host.Outcome State Fault Refusal :=
  .next (s.raiseUnimplemented (.kil opc))

/-- LAR (R282). -/
def execLar (addr : Word) (s : State) : Host.Outcome State Fault Refusal :=
  .next (s.raiseUnimplemented (.lar addr))

/-- LAX (R283). -/
def execLax (op : Operand) (s : State) : Host.Outcome State Fault Refusal :=
  .next (s.raiseUnimplemented (.lax op))

/-- RLA (R284). -/
def execRla (op : Operand) (s : State) : Host.Outcome State Fault Refusal :=
  .next (s.raiseUnimplemented (.rla op))

/-- RRA (R285). -/
def execRra (op : Operand) (s : State) : Host.Outcome State Fault Refusal :=
  .next (s.raiseUnimplemented (.rra op))

/-- SLO (R286). -/
def execSlo (op : Operand) (s : State) : Host.Outcome State Fault Refusal :=
  .next (s.raiseUnimplemented (.slo op))

/-- SRE (R287). -/
def execSre (op : Operand) (s : State) : Host.Outcome State Fault Refusal :=
  .next (s.raiseUnimplemented (.sre op))

/-- SXA (R288). -/
def execSxa (addr : Word) (s : State) : Host.Outcome State Fault Refusal :=
  .next (s.raiseUnimplemented (.sxa addr))

/-- SYA (R289). -/
def execSya (addr : Word) (s : State) : Host.Outcome State Fault Refusal :=
  .next (s.raiseUnimplemented (.sya addr))

/-- TOP (R290). -/
def execTop (opc : Byte) (op : Operand) (s : State) : Host.Outcome State Fault Refusal :=
  .next (s.raiseUnimplemented (.top opc op))

/-- XAA (R291). -/
def execXaa (imm : Byte) (s : State) : Host.Outcome State Fault Refusal :=
  .next (s.raiseUnimplemented (.xaa imm))

/-- XAS (R292). -/
def execXas (addr : Word) (s : State) : Host.Outcome State Fault Refusal :=
  .next (s.raiseUnimplemented (.xas addr))

end Sys2Proof.Machine
end

