-- ==== Sys2Proof/Machine/Dispatch.lean ====
section
/-! DEFINITION. What each instruction does to a state whose PC is already the next instruction's address
(40_fetch_and_addressing.md R110, 00_scope.md R15): one arm per constructor. -/

namespace Sys2Proof.Machine

def exec (i : Instr) (s : State) : Host.Outcome State Fault Refusal :=
  match i with
  -- load and store, 41_load_store.md
  | .lda op => Sys2Proof.Machine.execLda op s
  | .ldx op => Sys2Proof.Machine.execLdx op s
  | .ldy op => Sys2Proof.Machine.execLdy op s
  | .sta op => Sys2Proof.Machine.execSta op s
  | .stx op => Sys2Proof.Machine.execStx op s
  | .sty op => Sys2Proof.Machine.execSty op s
  -- arithmetic and compare, 42_arithmetic_compare.md
  | .adc op => Sys2Proof.Machine.execAdc op s
  | .sbc op _ => Sys2Proof.Machine.execSbc op s
  | .cmp op => Sys2Proof.Machine.execCmp op s
  | .cpx op => Sys2Proof.Machine.execCpx op s
  | .cpy op => Sys2Proof.Machine.execCpy op s
  -- logical and BIT, 43_logical_bit.md
  | .and op => Sys2Proof.Machine.execAnd op s
  | .ora op => Sys2Proof.Machine.execOra op s
  | .eor op => Sys2Proof.Machine.execEor op s
  | .bit op => Sys2Proof.Machine.execBit op s
  -- shift, rotate, increment, decrement, 44_shift_incdec.md
  | .asl op => Sys2Proof.Machine.execAsl op s
  | .lsr op => Sys2Proof.Machine.execLsr op s
  | .rol op => Sys2Proof.Machine.execRol op s
  | .ror op => Sys2Proof.Machine.execRor op s
  | .inc op => Sys2Proof.Machine.execInc op s
  | .dec op => Sys2Proof.Machine.execDec op s
  | .inx => Sys2Proof.Machine.execInx s
  | .dex => Sys2Proof.Machine.execDex s
  | .iny => Sys2Proof.Machine.execIny s
  | .dey => Sys2Proof.Machine.execDey s
  -- control transfer, 45_control_transfer.md
  | .bcc off => Sys2Proof.Machine.execBcc off s
  | .bcs off => Sys2Proof.Machine.execBcs off s
  | .beq off => Sys2Proof.Machine.execBeq off s
  | .bne off => Sys2Proof.Machine.execBne off s
  | .bmi off => Sys2Proof.Machine.execBmi off s
  | .bpl off => Sys2Proof.Machine.execBpl off s
  | .bvc off => Sys2Proof.Machine.execBvc off s
  | .bvs off => Sys2Proof.Machine.execBvs off s
  | .jmp op => Sys2Proof.Machine.execJmp op s
  | .jsr addr => Sys2Proof.Machine.execJsr addr s
  | .rts => Sys2Proof.Machine.execRts s
  | .brk => Sys2Proof.Machine.execBrk s
  | .rti => Sys2Proof.Machine.execRti s
  -- stack, flags, transfers, NOP, 46_stack_flags_transfers.md
  | .pha => Sys2Proof.Machine.execPha s
  | .pla => Sys2Proof.Machine.execPla s
  | .php => Sys2Proof.Machine.execPhp s
  | .plp => Sys2Proof.Machine.execPlp s
  | .clc => Sys2Proof.Machine.execClc s
  | .sec => Sys2Proof.Machine.execSec s
  | .cld => Sys2Proof.Machine.execCld s
  | .sed => Sys2Proof.Machine.execSed s
  | .cli => Sys2Proof.Machine.execCli s
  | .sei => Sys2Proof.Machine.execSei s
  | .clv => Sys2Proof.Machine.execClv s
  | .tax => Sys2Proof.Machine.execTax s
  | .tay => Sys2Proof.Machine.execTay s
  | .tsx => Sys2Proof.Machine.execTsx s
  | .txa => Sys2Proof.Machine.execTxa s
  | .txs => Sys2Proof.Machine.execTxs s
  | .tya => Sys2Proof.Machine.execTya s
  | .nop _ => Sys2Proof.Machine.execNop s
  -- undocumented tags, 47_undocumented.md
  | .aac opc imm => Sys2Proof.Machine.execAac opc imm s
  | .aax op => Sys2Proof.Machine.execAax op s
  | .arr imm => Sys2Proof.Machine.execArr imm s
  | .asr imm => Sys2Proof.Machine.execAsr imm s
  | .atx imm => Sys2Proof.Machine.execAtx imm s
  | .axa op => Sys2Proof.Machine.execAxa op s
  | .axs imm => Sys2Proof.Machine.execAxs imm s
  | .dcp op => Sys2Proof.Machine.execDcp op s
  | .dop opc op => Sys2Proof.Machine.execDop opc op s
  | .isc op => Sys2Proof.Machine.execIsc op s
  | .kil opc => Sys2Proof.Machine.execKil opc s
  | .lar addr => Sys2Proof.Machine.execLar addr s
  | .lax op => Sys2Proof.Machine.execLax op s
  | .rla op => Sys2Proof.Machine.execRla op s
  | .rra op => Sys2Proof.Machine.execRra op s
  | .slo op => Sys2Proof.Machine.execSlo op s
  | .sre op => Sys2Proof.Machine.execSre op s
  | .sxa addr => Sys2Proof.Machine.execSxa addr s
  | .sya addr => Sys2Proof.Machine.execSya addr s
  | .top opc op => Sys2Proof.Machine.execTop opc op s
  | .xaa imm => Sys2Proof.Machine.execXaa imm s
  | .xas addr => Sys2Proof.Machine.execXas addr s

end Sys2Proof.Machine
end

