-- ==== Sys2Proof/Machine/Step.lean ====
section
/-! DEFINITION. One step of the core (40_fetch_and_addressing.md R110), and placing an instruction where the next step
fetches. -/

namespace Sys2Proof.Machine

/-- R110: fetch at PC, advance PC past the instruction, execute, advance the clock. -/
def step (s : State) : Host.Outcome State Fault Refusal := finish s.fetchCycles (exec s.fetchInstr s.enter)

/-- The state with an opcode-table word's bytes stored from PC on, the first byte at PC, up to the longest instruction; the
addresses wrap (R111). It stands for the host loading a program (70_reset_and_hazards.md R354; log 8). -/
def State.withFetchWord (s : State) (nbits w : Nat) : State :=
  ((s.write s.pc (tableByte nbits w 0)).write (s.pc + 1#16) (tableByte nbits w 1)).write (s.pc + 2#16) (tableByte nbits w 2)

end Sys2Proof.Machine
end

