-- ==== Sys2Proof/Machine/Bus.lean ====
section
/-! DEFINITION. The bus accesses of a step, in order (20_memory.md R54, R56, R58, R59). On the plain-memory bus the order is
unobservable (R59); the lists say which addresses a step reads and which bytes it stores, and nothing in `exec` depends on
them. -/

namespace Sys2Proof.Machine

/-- One one-byte access at the bus (R56). -/
inductive Access where
  | read (a : Word)
  | write (a : Word) (v : Byte)
  deriving DecidableEq, Repr

/-- R59 item 2: operand bytes in increasing address order, then the pointer reads. Immediate mode reads nothing here (R114).
The two target bytes of Indirect are read low byte first. R54 and D17 give that order inside `read16`; the page-wrapping form of
R122 is no `read16`, and the spec gives its two reads no order (DESIGN CHOICE, log 18). `s` has PC at the next instruction. -/
def resolverAccesses (op : Operand) (s : State) : List Access :=
  match op with
  | .implied | .accumulator | .immediate _ => []
  | .zeroPage _ | .relative _ | .zeroPageX _ | .zeroPageY _ => [.read (s.pc - 1#16)]
  | .absolute _ | .absoluteX _ | .absoluteY _ => [.read (s.pc - 2#16), .read (s.pc - 1#16)]
  | .indirect ptr =>
    [.read (s.pc - 2#16), .read (s.pc - 1#16), .read ptr, .read (indirectHigh Config.jmpIndirectPageWrap ptr)]
  | .indexedIndirect b => [.read (s.pc - 1#16), .read (zext16 (b + s.x)), .read (zext16 (b + s.x + 1#8))]
  | .indirectIndexed b => [.read (s.pc - 1#16), .read (zext16 b), .read (zext16 (b + 1#8))]

/-- A shift's accesses: none on A, otherwise one read and one write of the result (R57, D16). -/
def shiftAccesses (f : Byte → ShiftResult) (op : Operand) (s : State) : List Access :=
  if noMem op then [] else [.read (resolve op s), .write (resolve op s) (f (operandByte op s)).value]

/-- R59 item 3: the accesses of the handler, in the order of its rule's pseudocode; so BRK reads its vector between its pushes
(R223; DEDUCED, log 19). An undocumented tag's handler reads nothing (R270). -/
def executeAccesses (i : Instr) (s : State) : List Access :=
  match i with
  | .lda op | .ldx op | .ldy op | .adc op | .sbc op _ | .cmp op | .cpx op | .cpy op | .and op | .ora op | .eor op | .bit op =>
    [.read (resolve op s)]
  | .sta op => [.write (resolve op s) s.a]
  | .stx op => [.write (resolve op s) s.x]
  | .sty op => [.write (resolve op s) s.y]
  | .asl op => shiftAccesses shiftLeft op s
  | .lsr op => shiftAccesses shiftRight op s
  | .rol op => shiftAccesses (rotateLeft (s.flag .C)) op s
  | .ror op => shiftAccesses (rotateRight (s.flag .C)) op s
  | .inc op => [.read (resolve op s), .write (resolve op s) (operandByte op s + 1#8)]
  | .dec op => [.read (resolve op s), .write (resolve op s) (operandByte op s - 1#8)]
  | .jsr _ => [.write (stackAddr s.sp) (hi (s.pc - 1#16)), .write (stackAddr (s.sp - 1#8)) (lo (s.pc - 1#16))]
  | .rts => [.read (stackAddr (s.sp + 1#8)), .read (stackAddr (s.sp + 2#8))]
  | .brk =>
    [.write (stackAddr s.sp) (hi (s.pc - 1#16)), .write (stackAddr (s.sp - 1#8)) (lo (s.pc - 1#16)), .read Config.brkVector,
      .read (Config.brkVector + 1#16), .write (stackAddr (s.sp - 2#8)) (statusPushed s.p)]
  | .rti => [.read (stackAddr (s.sp + 1#8)), .read (stackAddr (s.sp + 2#8)), .read (stackAddr (s.sp + 3#8))]
  | .pha => [.write (stackAddr s.sp) s.a]
  | .php => [.write (stackAddr s.sp) (statusPushed s.p)]
  | .pla | .plp => [.read (stackAddr (s.sp + 1#8))]
  | .inx | .dex | .iny | .dey | .bcc _ | .bcs _ | .beq _ | .bne _ | .bmi _ | .bpl _ | .bvc _ | .bvs _ | .jmp _
  | .clc | .sec | .cld | .sed | .cli | .sei | .clv | .tax | .tay | .tsx | .txa | .txs | .tya | .nop _
  | .aac _ _ | .aax _ | .arr _ | .asr _ | .atx _ | .axa _ | .axs _ | .dcp _ | .dop _ _ | .isc _ | .kil _ | .lar _
  | .lax _ | .rla _ | .rra _ | .slo _ | .sre _ | .sxa _ | .sya _ | .top _ _ | .xaa _ | .xas _ => []

/-- R58: the step reads the operand byte of every instruction. In an undocumented tag's Immediate form neither the resolver (R114)
nor the handler (R270) makes that read, so it is the step's own, in the place of the operand bytes (R59 item 2); in every other
form the resolver's list or the handler's has it (DEDUCED, log 19). `s` has PC at the next instruction. -/
def immediateAccesses (i : Instr) (s : State) : List Access :=
  match i.operand with
  | .immediate _ => if i.tag.undocumented then [.read (s.pc - 1#16)] else []
  | .implied | .accumulator | .zeroPage _ | .absolute _ | .relative _ | .zeroPageX _ | .zeroPageY _ | .absoluteX _ | .absoluteY _
  | .indirect _ | .indexedIndirect _ | .indirectIndexed _ => []

/-- R58, R59: every access of the step from `s`: the opcode, the operand bytes and pointers, the handler's accesses. -/
def stepAccesses (s : State) : List Access :=
  .read s.pc ::
    (immediateAccesses s.fetchInstr s.enter ++ resolverAccesses s.fetchInstr.operand s.enter ++
      executeAccesses s.fetchInstr s.enter)

/-- What a list of accesses leaves in memory (R52): reads change nothing. -/
def replay : List Access → Memory → Memory
  | [], m => m
  | .read _ :: l, m => replay l m
  | .write a v :: l, m => replay l (m.write a.toNat v)

/-- The addresses a list of accesses reads. -/
def readAddresses : List Access → List Word
  | [] => []
  | .read a :: l => a :: readAddresses l
  | .write _ _ :: l => readAddresses l

/-- The addresses a list of accesses stores to. -/
def storedAddresses : List Access → List Word
  | [] => []
  | .read _ :: l => storedAddresses l
  | .write a _ :: l => a :: storedAddresses l

end Sys2Proof.Machine
end

