-- ==== Sys2Proof/Machine/Trace.lean ====
section
/-! DEFINITION. The trace formatter, 60_exceptions.md R312, R320–R323: the line for the instruction about to execute, and the
reads it makes. It reads registers, clock and memory and writes nothing. Text is a list of characters. -/

namespace Sys2Proof.Machine

/-- Text as its characters. -/
abbrev Text := List Char

/-- One upper-case hexadecimal digit (R321). -/
def hexDigit (n : Nat) : Char :=
  ['0', '1', '2', '3', '4', '5', '6', '7', '8', '9', 'A', 'B', 'C', 'D', 'E', 'F'].getD n '?'

/-- `%02X`. -/
def hex2 (b : Byte) : Text := [hexDigit (b.toNat / 16), hexDigit (b.toNat % 16)]

/-- `%04X`. -/
def hex4 (w : Word) : Text := hex2 (hi w) ++ hex2 (lo w)

/-- `%3d` of a number below 1000, right-aligned. -/
def decimal3 (n : Nat) : Text :=
  [if n < 100 then ' ' else hexDigit (n / 100), if n < 10 then ' ' else hexDigit (n / 10 % 10), hexDigit (n % 10)]

/-- Left-aligned in a field of `k` characters. -/
def padRight (k : Nat) (t : Text) : Text := t ++ List.replicate (k - t.length) ' '

/-- R312: the dot position. -/
def dotPosition (clock : Nat) : Nat := clock * 3 % 341

/-- The mnemonic of a tag (30_encoding.md R89). -/
def mnemonic : Tag → Text
  | .adc => ['A', 'D', 'C']
  | .and => ['A', 'N', 'D']
  | .asl => ['A', 'S', 'L']
  | .bcc => ['B', 'C', 'C']
  | .bcs => ['B', 'C', 'S']
  | .beq => ['B', 'E', 'Q']
  | .bit => ['B', 'I', 'T']
  | .bmi => ['B', 'M', 'I']
  | .bne => ['B', 'N', 'E']
  | .bpl => ['B', 'P', 'L']
  | .brk => ['B', 'R', 'K']
  | .bvc => ['B', 'V', 'C']
  | .bvs => ['B', 'V', 'S']
  | .clc => ['C', 'L', 'C']
  | .cld => ['C', 'L', 'D']
  | .cli => ['C', 'L', 'I']
  | .clv => ['C', 'L', 'V']
  | .cmp => ['C', 'M', 'P']
  | .cpx => ['C', 'P', 'X']
  | .cpy => ['C', 'P', 'Y']
  | .dec => ['D', 'E', 'C']
  | .dex => ['D', 'E', 'X']
  | .dey => ['D', 'E', 'Y']
  | .eor => ['E', 'O', 'R']
  | .inc => ['I', 'N', 'C']
  | .inx => ['I', 'N', 'X']
  | .iny => ['I', 'N', 'Y']
  | .jmp => ['J', 'M', 'P']
  | .jsr => ['J', 'S', 'R']
  | .lda => ['L', 'D', 'A']
  | .ldx => ['L', 'D', 'X']
  | .ldy => ['L', 'D', 'Y']
  | .lsr => ['L', 'S', 'R']
  | .nop => ['N', 'O', 'P']
  | .ora => ['O', 'R', 'A']
  | .pha => ['P', 'H', 'A']
  | .php => ['P', 'H', 'P']
  | .pla => ['P', 'L', 'A']
  | .plp => ['P', 'L', 'P']
  | .rol => ['R', 'O', 'L']
  | .ror => ['R', 'O', 'R']
  | .rti => ['R', 'T', 'I']
  | .rts => ['R', 'T', 'S']
  | .sbc => ['S', 'B', 'C']
  | .sec => ['S', 'E', 'C']
  | .sed => ['S', 'E', 'D']
  | .sei => ['S', 'E', 'I']
  | .sta => ['S', 'T', 'A']
  | .stx => ['S', 'T', 'X']
  | .sty => ['S', 'T', 'Y']
  | .tax => ['T', 'A', 'X']
  | .tay => ['T', 'A', 'Y']
  | .tsx => ['T', 'S', 'X']
  | .txa => ['T', 'X', 'A']
  | .txs => ['T', 'X', 'S']
  | .tya => ['T', 'Y', 'A']
  | .aac => ['A', 'A', 'C']
  | .aax => ['A', 'A', 'X']
  | .arr => ['A', 'R', 'R']
  | .asr => ['A', 'S', 'R']
  | .atx => ['A', 'T', 'X']
  | .axa => ['A', 'X', 'A']
  | .axs => ['A', 'X', 'S']
  | .dcp => ['D', 'C', 'P']
  | .dop => ['D', 'O', 'P']
  | .isc => ['I', 'S', 'C']
  | .kil => ['K', 'I', 'L']
  | .lar => ['L', 'A', 'R']
  | .lax => ['L', 'A', 'X']
  | .rla => ['R', 'L', 'A']
  | .rra => ['R', 'R', 'A']
  | .slo => ['S', 'L', 'O']
  | .sre => ['S', 'R', 'E']
  | .sxa => ['S', 'X', 'A']
  | .sya => ['S', 'Y', 'A']
  | .top => ['T', 'O', 'P']
  | .xaa => ['X', 'A', 'A']
  | .xas => ['X', 'A', 'S']

/-- The text ` = `. -/
def equalsText : Text := [' ', '=', ' ']

/-- The text ` @ `. -/
def atText : Text := [' ', '@', ' ']

/-- R322: the operand text, one template per mode. `s` has PC at the next instruction (`pc1`). -/
def operandText (i : Instr) (s : State) : Text :=
  let m : Text := hex2 (s.read (resolve i.operand s))
  match i.operand with
  | .implied => []
  | .accumulator => ['A']
  | .immediate b => ['#', '$'] ++ hex2 b
  | .zeroPage b => ['$'] ++ hex2 b ++ equalsText ++ m
  | .absolute w => ['$'] ++ hex4 w ++ (if i.tag = .jmp ∨ i.tag = .jsr then [] else equalsText ++ m)
  | .relative b => ['$'] ++ hex4 (resolve (.relative b) s)
  | .zeroPageX b => ['$'] ++ hex2 b ++ [',', 'X'] ++ atText ++ hex2 (b + s.x) ++ equalsText ++ m
  | .zeroPageY b => ['$'] ++ hex2 b ++ [',', 'Y'] ++ atText ++ hex2 (b + s.y) ++ equalsText ++ m
  | .absoluteX w => ['$'] ++ hex4 w ++ [',', 'X'] ++ atText ++ hex4 (resolve (.absoluteX w) s) ++ equalsText ++ m
  | .absoluteY w => ['$'] ++ hex4 w ++ [',', 'Y'] ++ atText ++ hex4 (resolve (.absoluteY w) s) ++ equalsText ++ m
  | .indirect w => ['(', '$'] ++ hex4 w ++ [')'] ++ equalsText ++ hex4 (resolve (.indirect w) s)
  | .indexedIndirect b =>
    ['(', '$'] ++ hex2 b ++ [',', 'X', ')'] ++ atText ++ hex2 (b + s.x) ++ equalsText ++
      hex4 (resolve (.indexedIndirect b) s) ++ equalsText ++ m
  | .indirectIndexed b =>
    ['(', '$'] ++ hex2 b ++ [')', ',', 'Y'] ++ equalsText ++ hex4 (s.zpRead16 b) ++ atText ++
      hex4 (resolve (.indirectIndexed b) s) ++ equalsText ++ m

/-- Columns 6–13 of R321 before padding: as many bytes as the instruction's length, one space between. -/
def byteText (s : State) : Text :=
  match (lookup (s.read s.pc)).mode.operandBytes with
  | 0 => hex2 (s.read s.pc)
  | 1 => hex2 (s.read s.pc) ++ [' '] ++ hex2 (s.read (s.pc + 1#16))
  | _ => hex2 (s.read s.pc) ++ [' '] ++ hex2 (s.read (s.pc + 1#16)) ++ [' '] ++ hex2 (s.read (s.pc + 2#16))

/-- Columns 16–47 of R321 before padding: the mnemonic, then a space and the operand text where there is one. -/
def disassembly (s : State) : Text :=
  let operand := operandText s.fetchInstr s.enter
  mnemonic s.fetchInstr.tag ++ (if operand = [] then [] else [' '] ++ operand)

/-- Columns 48 on of R321: the live registers and the dot position. -/
def registerText (s : State) : Text :=
  ['A', ':'] ++ hex2 s.a ++ [' ', 'X', ':'] ++ hex2 s.x ++ [' ', 'Y', ':'] ++ hex2 s.y ++ [' ', 'P', ':'] ++ hex2 s.p ++
    [' ', 'S', 'P', ':'] ++ hex2 s.sp ++ [' ', 'C', 'Y', 'C', ':'] ++ decimal3 (dotPosition s.clock)

/-- `trace_line` (R320, R321) as characters. -/
def traceText (s : State) : Text :=
  hex4 s.pc ++ [' ', ' '] ++ padRight 8 (byteText s) ++ [' '] ++
    [if (lookup (s.read s.pc)).starred then '*' else ' '] ++ padRight 32 (disassembly s) ++ registerText s

/-! The formatter's reads (R323) -/

/-- The instruction bytes at PC, PC + 1 and PC + 2, as many as the length. -/
def instructionAccesses (s : State) : List Access :=
  match (lookup (s.read s.pc)).mode.operandBytes with
  | 0 => [.read s.pc]
  | 1 => [.read s.pc, .read (s.pc + 1#16)]
  | _ => [.read s.pc, .read (s.pc + 1#16), .read (s.pc + 2#16)]

/-- The pointer and operand reads of R322, pointer bytes first, the low byte before the high byte: R323 gives no order, nor does
R122 for its page-wrapping form (DESIGN CHOICE, log 18). `s` has PC at the next instruction. -/
def templateAccesses (i : Instr) (s : State) : List Access :=
  match i.operand with
  | .implied | .accumulator | .immediate _ | .relative _ => []
  | .zeroPage b => [.read (zext16 b)]
  | .absolute w => if i.tag = .jmp ∨ i.tag = .jsr then [] else [.read w]
  | .zeroPageX b => [.read (zext16 (b + s.x))]
  | .zeroPageY b => [.read (zext16 (b + s.y))]
  | .absoluteX w => [.read (w + zext16 s.x)]
  | .absoluteY w => [.read (w + zext16 s.y)]
  | .indirect w => [.read w, .read (indirectHigh Config.jmpIndirectPageWrap w)]
  | .indexedIndirect b =>
    [.read (zext16 (b + s.x)), .read (zext16 (b + s.x + 1#8)), .read (s.zpRead16 (b + s.x))]
  | .indirectIndexed b => [.read (zext16 b), .read (zext16 (b + 1#8)), .read (s.zpRead16 b + zext16 s.y)]

/-- R323: every read the formatter makes, in the order of the rule's list (DESIGN CHOICE, log 18). It stores nothing. -/
def traceAccesses (s : State) : List Access := instructionAccesses s ++ templateAccesses s.fetchInstr s.enter

/-- `trace_line(cpu) -> String` (R320). -/
def traceLine (s : State) : String := String.ofList (traceText s)

end Sys2Proof.Machine
end

