-- ==== Sys2Proof/Machine/Harness.lean ====
section
/-! DEFINITION. The host side: the control port (60_exceptions.md R330, 70_reset_and_hazards.md R350–R353), the verification
harness (R335–R338) and the debug commands (R340–R342). None of it is part of the block (00_scope.md R2); `step` does not
depend on it. -/

namespace Sys2Proof.Machine

/-! The control port -/

/-- `create(memory)` (R330, R350): the power-on state over a bus whose content the host has set. -/
def create (memory : Memory) : State := { State.reset with mem := memory }

/-- `reset(cpu)` (R350, R352): registers, clock and mark; memory is neither read nor written. -/
def resetCpu (s : State) : State := { State.reset with mem := s.mem }

/-- `Bus.reset()` (R352, D26): memory takes the content memInit. -/
def busReset (memInit : Memory) (s : State) : State := { s with mem := memInit }

/-- `goto` (R341): PC and nothing else. -/
def gotoAddress (addr : Word) (s : State) : State := s.withPC addr

/-- The state after `step(cpu)` (R330). A step always answers a next state (R112). -/
def stepCpu (s : State) : State :=
  match step s with
  | .next t => t
  | .fault _ => s
  | .refused _ => s

/-- `k` steps on end, as a host makes them. -/
def stepsCpu : Nat → State → State
  | 0, s => s
  | k + 1, s => stepsCpu k (stepCpu s)

/-! The verification harness -/

/-- The harness's states (R335). The spec gives `Idle → Running → Done` and nothing on a second test; the model starts in
`idle` and lets a test start in any phase (DESIGN CHOICE, log 17). -/
inductive HarnessPhase where
  | idle | running | done
  deriving DecidableEq, Repr

/-- The host parameters of 00_scope.md R8: the OPEN ones, and the files the host can open, each a path and its raw lines
(log 12). -/
structure HarnessParams where
  traceCompareWidth : Nat
  referenceLogPath  : Text
  memInit           : Memory
  files             : List (Text × List Text)
  deriving DecidableEq, Repr

/-- What the host holds: the core and its bus, the harness's phase, and whether the debug session has ended (R340). -/
structure Session where
  cpu   : State
  phase : HarnessPhase
  ended : Bool
  deriving DecidableEq, Repr

/-- The session a host begins with: the core over a memory the host has set (R350, R352), the harness Idle (R335, V-HN1), the
session not ended. That a session begins in Idle is a DESIGN CHOICE (log 17). -/
def Session.start (memory : Memory) : Session := { cpu := create memory, phase := .idle, ended := false }

/-- One recorded mismatch (R336): the line number and both strings. -/
structure Mismatch where
  line : Nat
  live : Text
  ref  : Text
  deriving DecidableEq, Repr

/-- R335: a reference line without its terminator, LF or CR LF. -/
def stripTerminator (t : Text) : Text :=
  match t.reverse with
  | '\n' :: '\r' :: rest => rest.reverse
  | '\n' :: rest => rest.reverse
  | _ => t

/-- R335: the live line and the reference line differ within the compare width. -/
def mismatched (width : Nat) (live ref : Text) : Bool := live.take width != ref.take width

/-- The loop of R335 over the log's lines: compare, record and decrement, step regardless, stop at tolerance zero. `n` lines
are done. The placeholder message of R301 is no part of it (DESIGN CHOICE, log 20). -/
def harnessLoop (width : Nat) : List Text → Int → Nat → State → List Mismatch → State × List Mismatch
  | [], _, _, cpu, found => (cpu, found)
  | raw :: rest, tolerance, n, cpu, found =>
    let ref := stripTerminator raw
    let live := traceText cpu
    let found' := if mismatched width live ref then found ++ [⟨n + 1, live, ref⟩] else found
    let tolerance' := if mismatched width live ref then tolerance - 1 else tolerance
    if tolerance' ≤ 0 then (stepCpu cpu, found') else harnessLoop width rest tolerance' (n + 1) (stepCpu cpu) found'

/-- Opening the reference log; `none` where the file is missing (R338). -/
def openLog (h : HarnessParams) : Option (List Text) := (h.files.find? fun f => f.1 == h.referenceLogPath).map Prod.snd

/-- R335: the run's first part: Running, core and bus at power-on state. -/
def harnessStart (h : HarnessParams) (ss : Session) : Session :=
  { ss with cpu := busReset h.memInit (resetCpu ss.cpu), phase := .running }

/-- R335, R336: the run's last part: Done, core and bus at power-on state again. -/
def harnessFinish (h : HarnessParams) (ss : Session) : Session :=
  { ss with cpu := busReset h.memInit (resetCpu ss.cpu), phase := .done }

/-- What the harness reports: the mismatches of a run (R336), or that the log is missing (R338). -/
inductive HarnessReport where
  | mismatches (found : List Mismatch)
  | missingLog
  deriving DecidableEq, Repr

/-- R336: a success is a run that records no mismatch. -/
def HarnessReport.success : HarnessReport → Bool
  | .mismatches [] => true
  | .mismatches (_ :: _) => false
  | .missingLog => false

/-- `test(tolerance)` (R335–R338). With the log missing nothing runs and nothing changes. A test started in Done goes to
Running, and one whose log is missing then leaves Done as it was: R338's "stays Idle" speaks of the first test only (DESIGN
CHOICE, log 17). -/
def harnessTest (h : HarnessParams) (tolerance : Int) (ss : Session) : Session × HarnessReport :=
  match openLog h with
  | none => (ss, .missingLog)
  | some log =>
    let started := harnessStart h ss
    let ran := harnessLoop h.traceCompareWidth log tolerance 0 started.cpu []
    (harnessFinish h { started with cpu := ran.1 }, .mismatches ran.2)

/-! The debug commands -/

/-- A parsed command line (R340). -/
inductive Command where
  | next (count : Nat)
  | goto (addr : Word)
  /-- `goto` with no address that parses (R342) -/
  | gotoBad
  | reset
  | test (tolerance : Int)
  | quit
  | unknown
  deriving DecidableEq, Repr

/-- The words of a line, split at the space character alone; spaces in front, behind and in a row count for nothing. The spec does
not say what separates words: a tab or a line terminator is part of its word here, and a line without words is an unknown
command (DESIGN CHOICE, log 11). -/
def splitWords : Text → Text → List Text
  | [], word => if word = [] then [] else [word]
  | c :: rest, word => if c = ' ' then (if word = [] then [] else [word]) ++ splitWords rest [] else splitWords rest (word ++ [c])

/-- The value of a hexadecimal digit, in either case (DESIGN CHOICE, log 11). -/
def digitValue (c : Char) : Option Nat :=
  let n := c.toNat
  if 48 ≤ n ∧ n ≤ 57 then some (n - 48)
  else if 65 ≤ n ∧ n ≤ 70 then some (n - 55)
  else if 97 ≤ n ∧ n ≤ 102 then some (n - 87)
  else none

/-- A number in a base, `none` where a character is no digit of it. -/
def digits (base : Nat) : Text → Nat → Option Nat
  | [], acc => some acc
  | c :: rest, acc =>
    match digitValue c with
    | none => none
    | some d => if d < base then digits base rest (acc * base + d) else none

/-- A number of at least one digit, and of digits alone. A sign is no digit, so `next -3` and `test -1` have no number and fall
back to 1, and no command line gives `test` a negative tolerance: the spec is silent on signs (DESIGN CHOICE, log 11). -/
def parseNumber (base : Nat) (t : Text) : Option Nat := if t = [] then none else digits base t 0

/-- R341: hexadecimal with or without a `$` or `0x` in front; one of them, and the `x` in lower case (DESIGN CHOICE, log 11). -/
def parseAddress (t : Text) : Option Nat :=
  match t with
  | '$' :: rest => parseNumber 16 rest
  | '0' :: 'x' :: rest => parseNumber 16 rest
  | _ => parseNumber 16 t

/-- R342: the count of `next`, decimal and unsigned (log 11); 1 where it is missing or no number. -/
def countArgument : List Text → Nat
  | [] => 1
  | t :: _ => (parseNumber 10 t).getD 1

/-- R340: the command of a list of words; words after the arguments are ignored (log 11). -/
def parseWords : List Text → Command
  | ['n', 'e', 'x', 't'] :: args => .next (countArgument args)
  | ['g', 'o', 't', 'o'] :: args =>
    match args with
    | [] => .gotoBad
    | t :: _ =>
      match parseAddress t with
      | none => .gotoBad
      | some n => .goto (BitVec.ofNat 16 n)
  | ['r', 'e', 's', 'e', 't'] :: _ => .reset
  | ['r', 's'] :: _ => .reset
  | ['t', 'e', 's', 't'] :: args =>
    match args with
    | [] => .test Config.harnessTolerance
    | t :: _ => .test (((parseNumber 10 t).map Int.ofNat).getD Config.harnessTolerance)
  | ['q', 'u', 'i', 't'] :: _ => .quit
  | ['e', 'x', 'i', 't'] :: _ => .quit
  | _ => .unknown

/-- R340: the command of a line. -/
def parseCommand (line : Text) : Command := parseWords (splitWords line [])

/-- What a command prints. -/
inductive Output where
  | line (text : Text)
  | report (r : HarnessReport)
  /-- the message about a bad `goto` address (R342) -/
  | badAddress
  /-- the error about an unrecognised command (R340) -/
  | badCommand
  deriving DecidableEq, Repr

/-- R340: `count` times, print the trace line, then step. A step with the outcome `unimplemented` prints nothing of its own here:
R301 says that the source's host prints a placeholder message, and R340's effect of `next` has none (DESIGN CHOICE, log 20). -/
def nextLines : Nat → State → State × List Output
  | 0, s => (s, [])
  | k + 1, s => ((nextLines k (stepCpu s)).1, .line (traceText s) :: (nextLines k (stepCpu s)).2)

/-- R340: one command's effect. -/
def runCommand (h : HarnessParams) (c : Command) (ss : Session) : Session × List Output :=
  match c with
  | .next count => ({ ss with cpu := (nextLines count ss.cpu).1 }, (nextLines count ss.cpu).2)
  | .goto addr => ({ ss with cpu := gotoAddress addr ss.cpu }, [])
  | .gotoBad => (ss, [.badAddress])
  | .reset => ({ ss with cpu := busReset h.memInit (resetCpu ss.cpu) }, [])
  | .test tolerance => ((harnessTest h tolerance ss).1, [.report (harnessTest h tolerance ss).2])
  | .quit => ({ ss with ended := true }, [])
  | .unknown => (ss, [.badCommand])

/-- A session over a list of command lines; what stands after the one that ends it is not read. -/
def runSession (h : HarnessParams) : List Text → Session → Session × List Output
  | [], ss => (ss, [])
  | l :: rest, ss =>
    if ss.ended then (ss, [])
    else
      let r := runCommand h (parseCommand l) ss
      ((runSession h rest r.1).1, r.2 ++ (runSession h rest r.1).2)

end Sys2Proof.Machine
end

