-- ==== Sys2Proof/Safety.lean ====
section
/-! DEFINITION. What counts as a good state and a good run (60_exceptions.md R301, 70_reset_and_hazards.md R355, R356), the
invariant of the core, and the words the statements are written in. -/

namespace Sys2Proof.Machine

/-- A good state: no undocumented opcode has been executed (R31, R301). -/
abbrev State.Good (s : State) : Prop := s.unimpl = none

/-- The invariant: memory is in its canonical form, and bits 4 and 5 of the live status are 1 (10_state.md R26). -/
structure State.Inv (s : State) : Prop where
  memory : s.mem.wf = true
  forced : s.p &&& 0x30#8 = 0x30#8

/-- Why a run ended (R356). -/
inductive RunEnd where
  | stopAddress
  | budget
  | unimplemented
  /-- a step that answered no next state; no step does (R112) -/
  | stopped
  deriving DecidableEq, Repr

/-- R356: a run ends at the first of (a) a step that would begin with PC at the stop address, (b) the budget used up, (c) a
step whose outcome is `unimplemented`. R356 does not say which end a run has where two come together:
where (a) and (b) both hold after a step it ends by (a), and where the last step of the budget, or a step that reaches the stop
address, has that outcome, it ends by (c) (DESIGN CHOICE, log 13). -/
def runUntil (stop : Option Word) : Nat → State → State × RunEnd
  | 0, s => (s, if stop = some s.pc then .stopAddress else .budget)
  | k + 1, s =>
    if stop = some s.pc then (s, .stopAddress)
    else
      match step s with
      | .next t => if s.stepOutcome = .ok then runUntil stop k t else (t, .unimplemented)
      | .fault _ => (s, .stopped)
      | .refused _ => (s, .stopped)

/-- A good run: it ended by (a) or (b), in a good state (R301, R356). -/
abbrev GoodEnd (r : State × RunEnd) : Prop := (r.2 = .stopAddress ∨ r.2 = .budget) ∧ r.1.Good

/-! The words of the statements -/

/-- Every byte of memory reads the same in both states. -/
abbrev SameMemory (s t : State) : Prop := ∀ a : Word, t.read a = s.read a

/-- Every byte of memory outside the listed addresses reads the same in both states. -/
abbrev SameMemoryOutside (l : List Word) (s t : State) : Prop := ∀ a : Word, a ∉ l → t.read a = s.read a

/-- Every flag outside the list, and bits 4 and 5, are the same in both status bytes. -/
abbrev SameFlagsOutside (l : List Flag) (p q : Byte) : Prop :=
  (∀ f : Flag, f ∉ l → getFlag q f = getFlag p f) ∧ q &&& 0x30#8 = p &&& 0x30#8

/-- Z and N of a status byte come from a result byte (`SetZN` of R13). -/
abbrev ZNFrom (q r : Byte) : Prop := getFlag q .Z = decide (r = 0#8) ∧ getFlag q .N = r.getLsbD 7

/-- The clock and the mark are the same in both states: the clock belongs to the step (R110), the mark to the undocumented
tags (R301). -/
abbrev SameMarks (s t : State) : Prop := t.clock = s.clock ∧ t.unimpl = s.unimpl

/-- The opcode byte decodes to the instruction form in the mode, whatever the operand bytes are (30_encoding.md R82–R84). -/
abbrev Encodes (opc : Byte) (m : Mode) (f : Operand → Instr) : Prop :=
  ∀ b1 b2 : Byte, decodeBytes opc b1 b2 = f (operandOf m b1 b2)

/-- The opcode byte decodes to the instruction, which has no operand bytes. -/
abbrev EncodesPlain (opc : Byte) (i : Instr) : Prop := ∀ b1 b2 : Byte, decodeBytes opc b1 b2 = i

end Sys2Proof.Machine
end

