-- ==== Sys2Proof/Certificates/Slice0/Obligations.lean ====
section
/-! DEFINITION. The statements for the provers, each a rule of spec/ or derived from one. In a statement about one
instruction, `s` is the state its handler sees: PC is already the next instruction's address (00_scope.md R15). -/

open Sys2Proof Sys2Proof.Machine

/-! Reset, encoding, the step -/

/-- R350, R352, R353: create and reset give the named values; reset leaves memory alone; reset twice is reset once. The
clock's and the mark's reset values are the spec's own choices (D21, D6). -/
def Obligations.ResetGivesTheNamedValues : Prop :=
  (∀ s : State, (s = State.reset ∨ (∃ m, s = create m) ∨ ∃ u, s = resetCpu u) →
    s.pc = 0xC000#16 ∧ s.sp = 0xFD#8 ∧ s.a = 0x00#8 ∧ s.x = 0x00#8 ∧ s.y = 0x00#8 ∧ s.p = 0x34#8 ∧ s.clock = 0 ∧
      s.unimpl = none) ∧
  (∀ m : Memory, (create m).mem = m) ∧
  ∀ s : State, (resetCpu s).mem = s.mem ∧ resetCpu (resetCpu s) = resetCpu s

/-- R24, R27: C, Z, I, D, V and N are bits 0, 1, 2, 3, 6 and 7 of P; reading a flag reads its bit and writing it changes that bit
alone; the masks of a status push and pull, bit by bit. -/
def Obligations.FlagAccessorsTouchOneBit : Prop :=
  ∀ (p v : Byte) (b : Bool),
    (∀ e ∈ [(Flag.C, 0), (.Z, 1), (.I, 2), (.D, 3), (.V, 6), (.N, 7)],
      getFlag p e.1 = p.getLsbD e.2 ∧ getFlag p e.1 = (p >>> e.2).getLsbD 0 ∧ e.1.pos = e.2 ∧
      ∀ k < 8, (setFlag p e.1 b).getLsbD k = if k = e.2 then b else p.getLsbD k) ∧
    (∀ k < 8, (statusPushed p).getLsbD k = if k = 4 ∨ k = 5 then true else p.getLsbD k) ∧
    ∀ k < 8, (statusPulled p v).getLsbD k = if k = 4 ∨ k = 5 then p.getLsbD k else v.getLsbD k

/-- R26, R32: the invariant holds at reset, and of every core created over a memory in canonical form. -/
def Obligations.CreatedCoreMeetsTheInvariant : Prop :=
  State.reset.Inv ∧ ∀ m : Memory, m.wf = true → (create m).Inv

/-- R26 and the form of memory: every step keeps bits 4 and 5 of P at 1 and memory in canonical form. -/
def Obligations.StepKeepsTheInvariant : Prop :=
  ∀ s t : State, s.Inv → step s = .next t → t.Inv

/-- R80, R82, R84, R85: decoding an encoded instruction gives it back, whatever bytes follow. The opcode map is the spec's
own choice (D4, D5; log 10). -/
def Obligations.DecodeOfEncodeIsTheInstruction : Prop :=
  ∀ (i : Instr) (rest : List Byte), i.WellFormed → decode (encode i ++ rest) = .ok (i, rest)

/-- R83, R87, R88: any three bytes decode to a well-formed instruction whose encoding is as many of them as its length says;
so no byte is undefined and each byte is one instruction form. The split into constructors is the model's choice (log 5). -/
def Obligations.EncodeOfDecodeIsTheBytes : Prop :=
  ∀ (b0 b1 b2 : Byte) (rest : List Byte),
    (decodeBytes b0 b1 b2).WellFormed ∧
    encode (decodeBytes b0 b1 b2) = [b0, b1, b2].take (decodeBytes b0 b1 b2).length ∧
    decode (b0 :: b1 :: b2 :: rest) =
      .ok (decodeBytes b0 b1 b2, (b0 :: b1 :: b2 :: rest).drop (decodeBytes b0 b1 b2).length)

/-- R84: some words of the opcode table, read as the table numbers their bits. The opcode map is the spec's own choice (D4,
D5; log 10). -/
def Obligations.TableWordsDecode : Prop :=
  decodeTableWord 8 0x00 = some .brk ∧
  decodeTableWord 16 0x42A9 = some (.lda (.immediate 0x42#8)) ∧
  decodeTableWord 24 0xC5F54C = some (.jmp (.absolute 0xC5F5#16)) ∧
  decodeTableWord 24 0x02FF6C = some (.jmp (.indirect 0x02FF#16)) ∧
  decodeTableWord 16 0xFBD0 = some (.bne 0xFB#8) ∧
  decodeTableWord 8 0x4A = some (.lsr .accumulator) ∧
  decodeTableWord 16 0x01EB = some (.sbc (.immediate 0x01#8) true) ∧
  decodeTableWord 8 0x1A = some (.nop 0x1A#8) ∧
  decodeTableWord 16 0x10A7 = some (.lax (.zeroPage 0x10#8)) ∧
  decodeTableWord 24 0x020020 = some (.jsr 0x0200#16)

/-- R87: 151 documented bytes, 98 bytes of undocumented tags, 7 further bytes that decode to documented tags. The spec's own
choice (D5; log 10). -/
def Obligations.OpcodeMapHasTheGivenCounts : Prop :=
  let bytes := (List.range 256).map (BitVec.ofNat 8)
  (bytes.filter fun b => !(lookup b).starred).length = 151 ∧
  (bytes.filter fun b => (lookup b).tag.undocumented).length = 98 ∧
  bytes.filter (fun b => (lookup b).starred && !(lookup b).tag.undocumented) =
    [0x1A#8, 0x3A#8, 0x5A#8, 0x7A#8, 0xDA#8, 0xEB#8, 0xFA#8]

/-- R110, R111: the step runs the instruction its bytes at PC decode to, from the state whose PC is past it, and adds the
opcode's cost; its outcome is the instruction's. That PC is past the instruction when execution starts is the spec's own
choice (D3; log 9). -/
def Obligations.StepRunsTheDecodedInstruction : Prop :=
  ∀ (s : State) (i : Instr) (rest : List Byte),
    decode [s.read s.pc, s.read (s.pc + 1#16), s.read (s.pc + 2#16)] = .ok (i, rest) →
    step s = finish (lookup (s.read s.pc)).cycles (exec i { s with pc := s.pc + BitVec.ofNat 16 i.length }) ∧
    s.stepOutcome = outcomeOf i

/-- R112, R301, R305: a step always completes, with outcome `unimplemented`, the tag and the byte for an undocumented tag and `ok`
for every other. That the outcome follows from the tag alone and is kept beside `step` is the spec's own choice (D6; log 4). -/
def Obligations.StepAlwaysCompletes : Prop :=
  ∀ s : State, (∃ t, step s = .next t) ∧
    s.stepOutcome =
      if (lookup (s.read s.pc)).tag.undocumented then .unimplemented (lookup (s.read s.pc)).tag (s.read s.pc) else .ok

/-- R86, R126, R311: the clock grows by the opcode's fixed cost, whatever the instruction did. The costs are the spec's own
choice (D7; log 10). -/
def Obligations.StepAddsTheFixedCost : Prop :=
  ∀ s : State, ∃ t, step s = .next t ∧ t.clock = s.clock + (lookup (s.read s.pc)).cycles

/-- R28, R111: after a step of any instruction that is no control transfer, PC is the opcode's address plus the
instruction's length, modulo 65536. -/
def Obligations.StepMovesPastTheInstruction : Prop :=
  ∀ s : State,
    (lookup (s.read s.pc)).tag ∉
      ([.bcc, .bcs, .beq, .bne, .bmi, .bpl, .bvc, .bvs, .jmp, .jsr, .rts, .brk, .rti] : List Tag) →
    ∃ t, step s = .next t ∧ t.pc.toNat = (s.pc.toNat + (lookup (s.read s.pc)).mode.length) % 65536

/-! The unimplemented outcome -/

/-- R31: no step changes a mark that is set. The mark is the spec's own choice (D6; log 4). -/
def Obligations.MarkKeepsTheFirst : Prop :=
  ∀ (s : State) (m : Tag × Byte), s.unimpl = some m → ∃ t, step s = .next t ∧ t.unimpl = some m

/-- R301: from a state without a mark, a step sets it exactly for an undocumented tag, to the tag and the opcode byte. The
mark is the spec's own choice (D6; log 4). -/
def Obligations.MarkIsSetByUndocumentedTagsOnly : Prop :=
  ∀ s : State, s.unimpl = none →
    ∃ t, step s = .next t ∧
      t.unimpl =
        if (lookup (s.read s.pc)).tag.undocumented then some ((lookup (s.read s.pc)).tag, s.read s.pc) else none

/-- R270–R292: each instruction of an undocumented tag runs, changes no register, flag, clock or memory byte, and marks the
state unless it is marked. That the handler leaves all state unchanged is the spec's own choice (D6), and that the model
goes on is log 4. -/
def Obligations.UndocumentedInstructionsOnlyMark : Prop :=
  ∀ (i : Instr) (s : State),
    i.tag ∈ ([.aac, .aax, .arr, .asr, .atx, .axa, .axs, .dcp, .dop, .isc, .kil, .lar, .lax, .rla, .rra, .slo, .sre, .sxa,
      .sya, .top, .xaa, .xas] : List Tag) →
    outcomeOf i = .unimplemented i.tag i.opcode ∧
    ∃ t, exec i s = .next t ∧ t.pc = s.pc ∧ t.sp = s.sp ∧ t.a = s.a ∧ t.x = s.x ∧ t.y = s.y ∧ t.p = s.p ∧
      t.clock = s.clock ∧ t.mem = s.mem ∧ SameMemory s t ∧
      t.unimpl = (match s.unimpl with | none => some (i.tag, i.opcode) | some m => some m)

/-- R270: the whole step of an undocumented opcode. That the handler leaves all state unchanged and the clock still advances
is the spec's own choice (D6; log 4). -/
def Obligations.UndocumentedStepAdvancesAndMarks : Prop :=
  ∀ s : State,
    (lookup (s.read s.pc)).tag ∈ ([.aac, .aax, .arr, .asr, .atx, .axa, .axs, .dcp, .dop, .isc, .kil, .lar, .lax, .rla,
      .rra, .slo, .sre, .sxa, .sya, .top, .xaa, .xas] : List Tag) →
    s.stepOutcome = .unimplemented (lookup (s.read s.pc)).tag (s.read s.pc) ∧
    ∃ t, step s = .next t ∧ t.pc = s.pc + BitVec.ofNat 16 (lookup (s.read s.pc)).mode.length ∧
      t.clock = s.clock + (lookup (s.read s.pc)).cycles ∧
      t.sp = s.sp ∧ t.a = s.a ∧ t.x = s.x ∧ t.y = s.y ∧ t.p = s.p ∧ SameMemory s t ∧
      t.unimpl = (match s.unimpl with | none => some ((lookup (s.read s.pc)).tag, s.read s.pc) | some m => some m)

/-! Memory, addressing, stack -/

/-- R52, R54: a byte written is read back, every other byte and every register stays; for any state. The plain bus is the
spec's own choice (D2; log 3). -/
def Obligations.BusIsPlainMemory : Prop :=
  ∀ (s : State) (a b : Word) (v : Byte),
    (s.write a v).read b = (if b = a then v else s.read b) ∧
    (s.write a v).pc = s.pc ∧ (s.write a v).sp = s.sp ∧ (s.write a v).a = s.a ∧ (s.write a v).x = s.x ∧
    (s.write a v).y = s.y ∧ (s.write a v).p = s.p ∧ SameMarks s (s.write a v)

/-- R53–R55: 16-bit reads are little-endian; read16 wraps at the top of the space, a zero-page pointer inside page 0. -/
def Obligations.WordReadsAreLittleEndianAndWrap : Prop :=
  ∀ (s : State) (a : Word) (p : Byte),
    (s.read16 a).toNat = (s.read (a + 1#16)).toNat * 256 + (s.read a).toNat ∧
    s.read16 0xFFFF#16 = word (s.read 0x0000#16) (s.read 0xFFFF#16) ∧
    (s.zpRead16 p).toNat =
      (s.read (BitVec.ofNat 16 ((p.toNat + 1) % 256))).toNat * 256 + (s.read (BitVec.ofNat 16 p.toNat)).toNat ∧
    s.zpRead16 0xFF#8 = word (s.read 0x0000#16) (s.read 0x00FF#16)

/-- R113–R121, R123, R124: the resolved address of each mode, as numbers; `s` is the state after the resolver. -/
def Obligations.ResolverComputesTheAddress : Prop :=
  ∀ (s : State) (b : Byte) (w : Word),
    noMem .implied = true ∧ noMem .accumulator = true ∧ (∀ op, op ≠ .implied → op ≠ .accumulator → noMem op = false) ∧
    (resolve (.immediate b) s).toNat = (s.pc.toNat + 65535) % 65536 ∧
    (resolve (.zeroPage b) s).toNat = b.toNat ∧
    resolve (.absolute w) s = w ∧
    ((resolve (.relative b) s).toNat : Int) = ((s.pc.toNat : Int) + b.toInt) % 65536 ∧
    (resolve (.zeroPageX b) s).toNat = (b.toNat + s.x.toNat) % 256 ∧
    (resolve (.zeroPageY b) s).toNat = (b.toNat + s.y.toNat) % 256 ∧
    (resolve (.absoluteX w) s).toNat = (w.toNat + s.x.toNat) % 65536 ∧
    (resolve (.absoluteY w) s).toNat = (w.toNat + s.y.toNat) % 65536 ∧
    resolve (.indexedIndirect b) s = s.zpRead16 (b + s.x) ∧
    (resolve (.indirectIndexed b) s).toNat = ((s.zpRead16 b).toNat + s.y.toNat) % 65536

/-- R114: a fetched Immediate operand is the byte the bus holds at the resolved address, one past the opcode; in every other
mode the operand byte is the one read at the resolved address. That the model carries the operand byte in the instruction is
log 6. -/
def Obligations.OperandIsTheByteAtTheAddress : Prop :=
  (∀ (s : State) (b : Byte), s.fetchInstr.operand = .immediate b →
    resolve (.immediate b) s.enter = s.pc + 1#16 ∧ operandByte (.immediate b) s.enter = s.read (s.pc + 1#16)) ∧
  ∀ (op : Operand) (s : State), op.mode ≠ .immediate → operandByte op s = s.read (resolve op s)

/-- R122: under the parameter's setting false the high byte comes from the next address, under true from the pointer's own
page, and the two settings differ only for a pointer that ends in FF; the core uses the OPEN setting. The parameter is OPEN
(D11; log 2). -/
def Obligations.IndirectPageWrapMattersAtPageEndOnly : Prop :=
  ∀ (s : State) (ptr : Word),
    indirectTarget false ptr s = s.read16 ptr ∧
    indirectTarget true ptr s = word (s.read (word (hi ptr) (lo ptr + 1#8))) (s.read ptr) ∧
    (lo ptr ≠ 0xFF#8 → indirectTarget true ptr s = indirectTarget false ptr s) ∧
    resolve (.indirect ptr) s = indirectTarget Config.jmpIndirectPageWrap ptr s

/-- R130, R131: a push writes at SP, then decrements it; a pull increments it, then reads there and changes no memory. The
order is the spec's own choice (D14). -/
def Obligations.PushAndPullOneByte : Prop :=
  ∀ (s : State) (v : Byte),
    (stackAddr s.sp).toNat = 0x100 + s.sp.toNat ∧
    (s.push v).sp = s.sp - 1#8 ∧ (s.push v).read (stackAddr s.sp) = v ∧ SameMemoryOutside [stackAddr s.sp] s (s.push v) ∧
    (s.push v).pc = s.pc ∧ (s.push v).a = s.a ∧ (s.push v).x = s.x ∧ (s.push v).y = s.y ∧ (s.push v).p = s.p ∧
    SameMarks s (s.push v) ∧
    s.pulled = s.read (stackAddr (s.sp + 1#8)) ∧ s.afterPull = { s with sp := s.sp + 1#8 }

/-- R133: a pushed word is pulled back, and SP goes down by 2 and returns; the low byte lies below the high byte (R132). The
byte order is the spec's own choice (D15). -/
def Obligations.PushedWordIsPulledBack : Prop :=
  ∀ (s : State) (v : Word),
    (s.push16 v).sp = s.sp - 2#8 ∧ (s.push16 v).pulled16 = v ∧ (s.push16 v).afterPull16.sp = s.sp ∧
    (s.push16 v).read (stackAddr s.sp) = hi v ∧ (s.push16 v).read (stackAddr (s.sp - 1#8)) = lo v ∧
    SameMemoryOutside [stackAddr s.sp, stackAddr (s.sp - 1#8)] s (s.push16 v)

/-- R23, R134: no byte outside the stack page changes by PHA, PHP, JSR or BRK, for every SP. The first clause speaks of the
stores in the model's own access list, written apart from `exec` (log 16). -/
def Obligations.StackStoresStayInPageOne : Prop :=
  ∀ (i : Instr) (s : State), i.tag ∈ ([.pha, .php, .jsr, .brk] : List Tag) →
    (∀ a ∈ storedAddresses (executeAccesses i s), 0x100 ≤ a.toNat ∧ a.toNat ≤ 0x1FF) ∧
    ∃ t, exec i s = .next t ∧ ∀ a : Word, (a.toNat < 0x100 ∨ 0x1FF < a.toNat) → t.read a = s.read a

/-- R57–R59: memory after an instruction is memory before it with exactly the stores of its access list made, in order; so
every byte outside the stored addresses is unchanged. The access lists follow D16 and log 16. -/
def Obligations.MemoryIsTheReplayOfTheAccesses : Prop :=
  ∀ (i : Instr) (s : State), ∃ t, exec i s = .next t ∧
    (∀ a : Word, t.read a = Memory.read (replay (executeAccesses i s) s.mem) a.toNat) ∧
    SameMemoryOutside (storedAddresses (executeAccesses i s)) s t

/-! Who writes what -/

/-- R21–R23: which instructions may write A, X, Y and SP; every other instruction leaves the register alone. -/
def Obligations.RegistersAreWrittenByTheirInstructionsOnly : Prop :=
  ∀ (i : Instr) (s t : State), exec i s = .next t →
    (i.tag ∉ ([.lda, .pla, .adc, .sbc, .and, .ora, .eor, .txa, .tya] : List Tag) →
      ¬(i.tag ∈ ([.asl, .lsr, .rol, .ror] : List Tag) ∧ noMem i.operand = true) → t.a = s.a) ∧
    (i.tag ∉ ([.ldx, .tax, .tsx, .inx, .dex] : List Tag) → t.x = s.x) ∧
    (i.tag ∉ ([.ldy, .tay, .iny, .dey] : List Tag) → t.y = s.y) ∧
    (i.tag ∉ ([.txs, .pha, .php, .pla, .plp, .jsr, .rts, .brk, .rti] : List Tag) → t.sp = s.sp)

/-- R25, R26: which instructions may write each flag; no instruction writes bits 4 and 5. -/
def Obligations.FlagsAreWrittenByTheirInstructionsOnly : Prop :=
  ∀ (i : Instr) (s t : State), exec i s = .next t →
    (i.tag ∉ ([.adc, .sbc, .cmp, .cpx, .cpy, .asl, .lsr, .rol, .ror, .clc, .sec, .plp, .rti] : List Tag) →
      getFlag t.p .C = getFlag s.p .C) ∧
    (i.tag ∉ ([.lda, .ldx, .ldy, .adc, .sbc, .cmp, .cpx, .cpy, .and, .ora, .eor, .bit, .asl, .lsr, .rol, .ror, .inc, .dec,
        .inx, .dex, .iny, .dey, .pla, .tax, .tay, .tsx, .txa, .tya, .plp, .rti] : List Tag) →
      getFlag t.p .Z = getFlag s.p .Z ∧ getFlag t.p .N = getFlag s.p .N) ∧
    (i.tag ∉ ([.sei, .cli, .brk, .plp, .rti] : List Tag) → getFlag t.p .I = getFlag s.p .I) ∧
    (i.tag ∉ ([.sed, .cld, .plp, .rti] : List Tag) → getFlag t.p .D = getFlag s.p .D) ∧
    (i.tag ∉ ([.adc, .sbc, .bit, .clv, .plp, .rti] : List Tag) → getFlag t.p .V = getFlag s.p .V) ∧
    t.p &&& 0x30#8 = s.p &&& 0x30#8

/-- R25, R166, R304: nothing but a status push reads I or D. Two states that differ in these two flags alone take steps
whose results differ in these two flags at most, and in the one byte that PHP or BRK pushes. That D is not read and I masks
nothing are the spec's own choices (D10, D18). -/
def Obligations.InterruptAndDecimalFlagsAreNotRead : Prop :=
  ∀ (s : State) (q : Byte), q &&& 0xF3#8 = s.p &&& 0xF3#8 →
    ∃ t u, step s = .next t ∧ step (s.withP q) = .next u ∧
      u.pc = t.pc ∧ u.sp = t.sp ∧ u.a = t.a ∧ u.x = t.x ∧ u.y = t.y ∧ u.p &&& 0xF3#8 = t.p &&& 0xF3#8 ∧
      u.clock = t.clock ∧ u.unimpl = t.unimpl ∧
      ∀ a : Word, ((lookup (s.read s.pc)).tag = .php → a ≠ stackAddr s.sp) →
        ((lookup (s.read s.pc)).tag = .brk → a ≠ stackAddr (s.sp - 2#8)) → u.read a = t.read a

/-! Load and store -/

/-- R140–R142: the register takes the operand byte, Z and N come from it, nothing else changes. -/
def Obligations.LoadsSetTheRegisterZAndN : Prop :=
  (∀ e ∈ [(0xA9#8, Mode.immediate), (0xA5#8, .zeroPage), (0xB5#8, .zeroPageX), (0xAD#8, .absolute), (0xBD#8, .absoluteX),
    (0xB9#8, .absoluteY), (0xA1#8, .indexedIndirect), (0xB1#8, .indirectIndexed)], Encodes e.1 e.2 .lda) ∧
  (∀ e ∈ [(0xA2#8, Mode.immediate), (0xA6#8, .zeroPage), (0xB6#8, .zeroPageY), (0xAE#8, .absolute), (0xBE#8, .absoluteY)],
    Encodes e.1 e.2 .ldx) ∧
  (∀ e ∈ [(0xA0#8, Mode.immediate), (0xA4#8, .zeroPage), (0xB4#8, .zeroPageX), (0xAC#8, .absolute), (0xBC#8, .absoluteX)],
    Encodes e.1 e.2 .ldy) ∧
  ∀ (op : Operand) (s : State),
    outcomeOf (.lda op) = .ok ∧ outcomeOf (.ldx op) = .ok ∧ outcomeOf (.ldy op) = .ok ∧
    (∃ t, exec (.lda op) s = .next t ∧ t.a = operandByte op s ∧ ZNFrom t.p (operandByte op s) ∧
      SameFlagsOutside [.Z, .N] s.p t.p ∧ t.pc = s.pc ∧ t.sp = s.sp ∧ t.x = s.x ∧ t.y = s.y ∧ SameMarks s t ∧
      SameMemory s t) ∧
    (∃ t, exec (.ldx op) s = .next t ∧ t.x = operandByte op s ∧ ZNFrom t.p (operandByte op s) ∧
      SameFlagsOutside [.Z, .N] s.p t.p ∧ t.pc = s.pc ∧ t.sp = s.sp ∧ t.a = s.a ∧ t.y = s.y ∧ SameMarks s t ∧
      SameMemory s t) ∧
    ∃ t, exec (.ldy op) s = .next t ∧ t.y = operandByte op s ∧ ZNFrom t.p (operandByte op s) ∧
      SameFlagsOutside [.Z, .N] s.p t.p ∧ t.pc = s.pc ∧ t.sp = s.sp ∧ t.a = s.a ∧ t.x = s.x ∧ SameMarks s t ∧
      SameMemory s t

/-- R143–R145: one byte is stored, at the resolved address; no flag and no register changes. That the store is the one access is
said of the model's access list (log 16). -/
def Obligations.StoresWriteOneByte : Prop :=
  (∀ e ∈ [(0x85#8, Mode.zeroPage), (0x95#8, .zeroPageX), (0x8D#8, .absolute), (0x9D#8, .absoluteX), (0x99#8, .absoluteY),
    (0x81#8, .indexedIndirect), (0x91#8, .indirectIndexed)], Encodes e.1 e.2 .sta) ∧
  (∀ e ∈ [(0x86#8, Mode.zeroPage), (0x96#8, .zeroPageY), (0x8E#8, .absolute)], Encodes e.1 e.2 .stx) ∧
  (∀ e ∈ [(0x84#8, Mode.zeroPage), (0x94#8, .zeroPageX), (0x8C#8, .absolute)], Encodes e.1 e.2 .sty) ∧
  ∀ (op : Operand) (s : State), ∀ e ∈ [(Instr.sta op, s.a), (.stx op, s.x), (.sty op, s.y)],
    outcomeOf e.1 = .ok ∧ executeAccesses e.1 s = [.write (resolve op s) e.2] ∧
    ∃ t, exec e.1 s = .next t ∧ t.read (resolve op s) = e.2 ∧ SameMemoryOutside [resolve op s] s t ∧
      t.pc = s.pc ∧ t.sp = s.sp ∧ t.a = s.a ∧ t.x = s.x ∧ t.y = s.y ∧ t.p = s.p ∧ SameMarks s t

/-! Arithmetic and compare -/

/-- R160: the widened sum gives A, C and V; Z and N come from the truncated result; nothing else changes. -/
def Obligations.AdcAddsWithCarry : Prop :=
  (∀ e ∈ [(0x69#8, Mode.immediate), (0x65#8, .zeroPage), (0x75#8, .zeroPageX), (0x6D#8, .absolute), (0x7D#8, .absoluteX),
    (0x79#8, .absoluteY), (0x61#8, .indexedIndirect), (0x71#8, .indirectIndexed)], Encodes e.1 e.2 .adc) ∧
  ∀ (op : Operand) (s : State),
    let m := operandByte op s
    let r : Nat := s.a.toNat + m.toNat + (if getFlag s.p .C then 1 else 0)
    outcomeOf (.adc op) = .ok ∧
    ∃ t, exec (.adc op) s = .next t ∧ t.a.toNat = r % 256 ∧ getFlag t.p .C = decide (r > 0xFF) ∧
      getFlag t.p .V = (!(s.a ^^^ m).getLsbD 7 && (t.a ^^^ s.a).getLsbD 7) ∧ ZNFrom t.p t.a ∧
      SameFlagsOutside [.C, .Z, .V, .N] s.p t.p ∧
      t.pc = s.pc ∧ t.sp = s.sp ∧ t.x = s.x ∧ t.y = s.y ∧ SameMarks s t ∧ SameMemory s t

/-- R161: the widened difference gives A, C and V. That the byte EB executes the same way (R294, D5), and its length 2 and cost 2
(D7), are the spec's own choices (log 10). -/
def Obligations.SbcSubtractsWithBorrow : Prop :=
  (∀ e ∈ [(0xE9#8, Mode.immediate), (0xE5#8, .zeroPage), (0xF5#8, .zeroPageX), (0xED#8, .absolute), (0xFD#8, .absoluteX),
    (0xF9#8, .absoluteY), (0xE1#8, .indexedIndirect), (0xF1#8, .indirectIndexed)], Encodes e.1 e.2 fun op => .sbc op false) ∧
  (Encodes 0xEB#8 .immediate fun op => .sbc op true) ∧ (lookup 0xEB#8).cycles = 2 ∧ (lookup 0xEB#8).mode.length = 2 ∧
  ∀ (op : Operand) (eb : Bool) (s : State),
    let m := operandByte op s
    let r : Int := (s.a.toNat : Int) - m.toNat - (1 - (if getFlag s.p .C then 1 else 0))
    outcomeOf (.sbc op eb) = .ok ∧
    ∃ t, exec (.sbc op eb) s = .next t ∧ (t.a.toNat : Int) = r % 256 ∧ getFlag t.p .C = decide (r ≥ 0) ∧
      getFlag t.p .V = ((s.a ^^^ m).getLsbD 7 && (t.a ^^^ s.a).getLsbD 7) ∧ ZNFrom t.p t.a ∧
      SameFlagsOutside [.C, .Z, .V, .N] s.p t.p ∧
      t.pc = s.pc ∧ t.sp = s.sp ∧ t.x = s.x ∧ t.y = s.y ∧ SameMarks s t ∧ SameMemory s t

/-- R160, R161: subtracting a byte is adding its complement, in value, carry and overflow. -/
def Obligations.SubtractionIsAdditionOfTheComplement : Prop :=
  ∀ (a m : Byte) (c : Bool), subWithBorrow a m c = addWithCarry a (~~~m) c

/-- R165: V records the overflow of the signed result and C that of the unsigned one. -/
def Obligations.OverflowIsSignedAndCarryUnsigned : Prop :=
  ∀ (a m : Byte) (c : Bool),
    let k : Int := if c then 1 else 0
    (addWithCarry a m c).overflow = decide (a.toInt + m.toInt + k < -128 ∨ 127 < a.toInt + m.toInt + k) ∧
    (addWithCarry a m c).carry = decide ((255 : Int) < a.toNat + m.toNat + k) ∧
    (subWithBorrow a m c).overflow =
      decide (a.toInt - m.toInt - (1 - k) < -128 ∨ 127 < a.toInt - m.toInt - (1 - k)) ∧
    (subWithBorrow a m c).carry = decide ((0 : Int) ≤ a.toNat - m.toNat - (1 - k))

/-- R166: ADC and SBC give the same A, C, Z, V and N with D set and with D clear, and leave D as it was. The spec's own
choice (D10). -/
def Obligations.DecimalFlagDoesNotChangeArithmetic : Prop :=
  ∀ (op : Operand) (eb : Bool) (s : State), ∀ i ∈ [Instr.adc op, .sbc op eb],
    ∃ t u, exec i (s.withFlag .D false) = .next t ∧ exec i (s.withFlag .D true) = .next u ∧ t.a = u.a ∧
      (∀ f ∈ [Flag.C, .Z, .V, .N], getFlag t.p f = getFlag u.p f) ∧ getFlag t.p .D = false ∧ getFlag u.p .D = true

/-- R162–R164: C from the unsigned compare, Z and N from the truncated difference; nothing else changes. -/
def Obligations.ComparesWriteFlagsOnly : Prop :=
  (∀ e ∈ [(0xC9#8, Mode.immediate), (0xC5#8, .zeroPage), (0xD5#8, .zeroPageX), (0xCD#8, .absolute), (0xDD#8, .absoluteX),
    (0xD9#8, .absoluteY), (0xC1#8, .indexedIndirect), (0xD1#8, .indirectIndexed)], Encodes e.1 e.2 .cmp) ∧
  (∀ e ∈ [(0xE0#8, Mode.immediate), (0xE4#8, .zeroPage), (0xEC#8, .absolute)], Encodes e.1 e.2 .cpx) ∧
  (∀ e ∈ [(0xC0#8, Mode.immediate), (0xC4#8, .zeroPage), (0xCC#8, .absolute)], Encodes e.1 e.2 .cpy) ∧
  ∀ (op : Operand) (s : State), ∀ e ∈ [(Instr.cmp op, s.a), (.cpx op, s.x), (.cpy op, s.y)],
    let m := operandByte op s
    outcomeOf e.1 = .ok ∧
    ∃ t, exec e.1 s = .next t ∧ getFlag t.p .C = decide (m.toNat ≤ e.2.toNat) ∧ getFlag t.p .Z = decide (m = e.2) ∧
      getFlag t.p .N = (e.2 - m).getLsbD 7 ∧ SameFlagsOutside [.C, .Z, .N] s.p t.p ∧
      t.pc = s.pc ∧ t.sp = s.sp ∧ t.a = s.a ∧ t.x = s.x ∧ t.y = s.y ∧ SameMarks s t ∧ SameMemory s t

/-! Logical and BIT -/

/-- R180–R182: A takes the bitwise result, Z and N come from it, nothing else changes. -/
def Obligations.LogicalInstructionsWriteAZN : Prop :=
  (∀ e ∈ [(0x29#8, Mode.immediate), (0x25#8, .zeroPage), (0x35#8, .zeroPageX), (0x2D#8, .absolute), (0x3D#8, .absoluteX),
    (0x39#8, .absoluteY), (0x21#8, .indexedIndirect), (0x31#8, .indirectIndexed)], Encodes e.1 e.2 .and) ∧
  (∀ e ∈ [(0x09#8, Mode.immediate), (0x05#8, .zeroPage), (0x15#8, .zeroPageX), (0x0D#8, .absolute), (0x1D#8, .absoluteX),
    (0x19#8, .absoluteY), (0x01#8, .indexedIndirect), (0x11#8, .indirectIndexed)], Encodes e.1 e.2 .ora) ∧
  (∀ e ∈ [(0x49#8, Mode.immediate), (0x45#8, .zeroPage), (0x55#8, .zeroPageX), (0x4D#8, .absolute), (0x5D#8, .absoluteX),
    (0x59#8, .absoluteY), (0x41#8, .indexedIndirect), (0x51#8, .indirectIndexed)], Encodes e.1 e.2 .eor) ∧
  ∀ (op : Operand) (s : State),
    let m := operandByte op s
    ∀ e ∈ [(Instr.and op, s.a &&& m), (.ora op, s.a ||| m), (.eor op, s.a ^^^ m)],
      outcomeOf e.1 = .ok ∧
      ∃ t, exec e.1 s = .next t ∧ t.a = e.2 ∧ ZNFrom t.p e.2 ∧ SameFlagsOutside [.Z, .N] s.p t.p ∧
        t.pc = s.pc ∧ t.sp = s.sp ∧ t.x = s.x ∧ t.y = s.y ∧ SameMarks s t ∧ SameMemory s t

/-- R183: Z from `A & m`, V and N from bits 6 and 7 of m, nothing else changes. The semantics is the spec's own choice (D8).
-/
def Obligations.BitTestsMemoryAgainstA : Prop :=
  Encodes 0x24#8 .zeroPage .bit ∧ Encodes 0x2C#8 .absolute .bit ∧
  ∀ (op : Operand) (s : State),
    let m := operandByte op s
    outcomeOf (.bit op) = .ok ∧
    ∃ t, exec (.bit op) s = .next t ∧ getFlag t.p .Z = decide (s.a &&& m = 0#8) ∧ getFlag t.p .V = m.getLsbD 6 ∧
      getFlag t.p .N = m.getLsbD 7 ∧ SameFlagsOutside [.Z, .V, .N] s.p t.p ∧
      t.pc = s.pc ∧ t.sp = s.sp ∧ t.a = s.a ∧ t.x = s.x ∧ t.y = s.y ∧ SameMarks s t ∧ SameMemory s t

/-! Shift, rotate, increment, decrement -/

/-- R190–R193: the shifted value, the bit shifted off, and where the result goes: A in Accumulator mode, else the byte at the
resolved address. -/
def Obligations.ShiftsAndRotatesMoveOneBit : Prop :=
  (∀ e ∈ [(0x0A#8, Mode.accumulator), (0x06#8, .zeroPage), (0x16#8, .zeroPageX), (0x0E#8, .absolute), (0x1E#8, .absoluteX)],
    Encodes e.1 e.2 .asl) ∧
  (∀ e ∈ [(0x4A#8, Mode.accumulator), (0x46#8, .zeroPage), (0x56#8, .zeroPageX), (0x4E#8, .absolute), (0x5E#8, .absoluteX)],
    Encodes e.1 e.2 .lsr) ∧
  (∀ e ∈ [(0x2A#8, Mode.accumulator), (0x26#8, .zeroPage), (0x36#8, .zeroPageX), (0x2E#8, .absolute), (0x3E#8, .absoluteX)],
    Encodes e.1 e.2 .rol) ∧
  (∀ e ∈ [(0x6A#8, Mode.accumulator), (0x66#8, .zeroPage), (0x76#8, .zeroPageX), (0x6E#8, .absolute), (0x7E#8, .absoluteX)],
    Encodes e.1 e.2 .ror) ∧
  ∀ (op : Operand) (s : State),
    let v := if noMem op then s.a else operandByte op s
    let c := if getFlag s.p .C then 1 else 0
    ∀ e ∈ [(Instr.asl op, 2 * v.toNat % 256, v.getLsbD 7), (.lsr op, v.toNat / 2, v.getLsbD 0),
        (.rol op, (2 * v.toNat + c) % 256, v.getLsbD 7), (.ror op, v.toNat / 2 + 128 * c, v.getLsbD 0)],
      outcomeOf e.1 = .ok ∧
      ∃ t, exec e.1 s = .next t ∧ getFlag t.p .C = e.2.2 ∧ ZNFrom t.p (BitVec.ofNat 8 e.2.1) ∧
        SameFlagsOutside [.C, .Z, .N] s.p t.p ∧
        (noMem op = true → t.a.toNat = e.2.1 ∧ SameMemory s t) ∧
        (noMem op = false → t.a = s.a ∧ (t.read (resolve op s)).toNat = e.2.1 ∧ SameMemoryOutside [resolve op s] s t) ∧
        t.pc = s.pc ∧ t.sp = s.sp ∧ t.x = s.x ∧ t.y = s.y ∧ SameMarks s t

/-- R194, R195: the byte at the resolved address goes up or down by one modulo 256. -/
def Obligations.IncAndDecChangeOneMemoryByte : Prop :=
  (∀ e ∈ [(0xE6#8, Mode.zeroPage), (0xF6#8, .zeroPageX), (0xEE#8, .absolute), (0xFE#8, .absoluteX)], Encodes e.1 e.2 .inc) ∧
  (∀ e ∈ [(0xC6#8, Mode.zeroPage), (0xD6#8, .zeroPageX), (0xCE#8, .absolute), (0xDE#8, .absoluteX)], Encodes e.1 e.2 .dec) ∧
  ∀ (op : Operand) (s : State),
    let v := operandByte op s
    ∀ e ∈ [(Instr.inc op, (v.toNat + 1) % 256), (.dec op, (v.toNat + 255) % 256)],
      outcomeOf e.1 = .ok ∧
      ∃ t, exec e.1 s = .next t ∧ (t.read (resolve op s)).toNat = e.2 ∧ SameMemoryOutside [resolve op s] s t ∧
        ZNFrom t.p (BitVec.ofNat 8 e.2) ∧ SameFlagsOutside [.Z, .N] s.p t.p ∧
        t.pc = s.pc ∧ t.sp = s.sp ∧ t.a = s.a ∧ t.x = s.x ∧ t.y = s.y ∧ SameMarks s t

/-- R196–R199: X or Y goes up or down by one modulo 256. -/
def Obligations.IndexRegistersCountModulo256 : Prop :=
  EncodesPlain 0xE8#8 .inx ∧ EncodesPlain 0xCA#8 .dex ∧ EncodesPlain 0xC8#8 .iny ∧ EncodesPlain 0x88#8 .dey ∧
  ∀ s : State,
    (∀ e ∈ [(Instr.inx, (s.x.toNat + 1) % 256, s.y.toNat), (.dex, (s.x.toNat + 255) % 256, s.y.toNat)],
      outcomeOf e.1 = .ok ∧
      ∃ t, exec e.1 s = .next t ∧ t.x.toNat = e.2.1 ∧ t.y.toNat = e.2.2 ∧ ZNFrom t.p t.x ∧
        SameFlagsOutside [.Z, .N] s.p t.p ∧ t.pc = s.pc ∧ t.sp = s.sp ∧ t.a = s.a ∧ SameMarks s t ∧ SameMemory s t) ∧
    ∀ e ∈ [(Instr.iny, s.x.toNat, (s.y.toNat + 1) % 256), (.dey, s.x.toNat, (s.y.toNat + 255) % 256)],
      outcomeOf e.1 = .ok ∧
      ∃ t, exec e.1 s = .next t ∧ t.x.toNat = e.2.1 ∧ t.y.toNat = e.2.2 ∧ ZNFrom t.p t.y ∧
        SameFlagsOutside [.Z, .N] s.p t.p ∧ t.pc = s.pc ∧ t.sp = s.sp ∧ t.a = s.a ∧ SameMarks s t ∧ SameMemory s t

/-! Control transfer -/

/-- R211–R218: a branch whose condition holds goes to the next instruction's address plus the signed offset, modulo 65536; one
whose condition fails changes nothing. -/
def Obligations.BranchesGoByTheirFlag : Prop :=
  (∀ b1 b2 : Byte, ∀ e ∈ [(0x90#8, Instr.bcc b1), (0xB0#8, .bcs b1), (0xF0#8, .beq b1), (0xD0#8, .bne b1), (0x30#8, .bmi b1),
    (0x10#8, .bpl b1), (0x50#8, .bvc b1), (0x70#8, .bvs b1)], decodeBytes e.1 b1 b2 = e.2) ∧
  ∀ (off : Byte) (s : State),
    ∀ e ∈ [(Instr.bcc off, Flag.C, false), (.bcs off, .C, true), (.beq off, .Z, true), (.bne off, .Z, false),
        (.bmi off, .N, true), (.bpl off, .N, false), (.bvc off, .V, false), (.bvs off, .V, true)],
      outcomeOf e.1 = .ok ∧
      ∃ t, exec e.1 s = .next t ∧
        (getFlag s.p e.2.1 = e.2.2 → (t.pc.toNat : Int) = ((s.pc.toNat : Int) + off.toInt) % 65536) ∧
        (getFlag s.p e.2.1 = !e.2.2 → t.pc = s.pc) ∧
        t.sp = s.sp ∧ t.a = s.a ∧ t.x = s.x ∧ t.y = s.y ∧ t.p = s.p ∧ SameMarks s t ∧ SameMemory s t

/-- R220: the target is always the resolved address: the operand word, or the word at the pointer under the OPEN
parameter. -/
def Obligations.JumpGoesToTheResolvedAddress : Prop :=
  Encodes 0x4C#8 .absolute .jmp ∧ Encodes 0x6C#8 .indirect .jmp ∧
  (∀ (w : Word) (s : State), exec (.jmp (.absolute w)) s = .next { s with pc := w }) ∧
  (∀ (w : Word) (s : State),
    exec (.jmp (.indirect w)) s = .next { s with pc := indirectTarget Config.jmpIndirectPageWrap w s }) ∧
  ∀ (op : Operand) (s : State), outcomeOf (.jmp op) = .ok ∧ exec (.jmp op) s = .next { s with pc := resolve op s }

/-- R221: the address of JSR's last byte is pushed, high byte first, and PC becomes the operand. -/
def Obligations.JsrPushesItsLastByteAddress : Prop :=
  (∀ b1 b2 : Byte, decodeBytes 0x20#8 b1 b2 = .jsr (word b2 b1)) ∧
  ∀ (addr : Word) (s : State), outcomeOf (.jsr addr) = .ok ∧
    ∃ t, exec (.jsr addr) s = .next t ∧ t.pc = addr ∧ t.sp = s.sp - 2#8 ∧
      t.read (stackAddr s.sp) = hi (s.pc - 1#16) ∧ t.read (stackAddr (s.sp - 1#8)) = lo (s.pc - 1#16) ∧
      SameMemoryOutside [stackAddr s.sp, stackAddr (s.sp - 1#8)] s t ∧
      t.a = s.a ∧ t.x = s.x ∧ t.y = s.y ∧ t.p = s.p ∧ SameMarks s t

/-- R222: PC becomes one past the pulled word. -/
def Obligations.RtsReturnsPastThePulledAddress : Prop :=
  EncodesPlain 0x60#8 .rts ∧ outcomeOf .rts = .ok ∧
  ∀ s : State, ∃ t, exec .rts s = .next t ∧
    t.pc = word (s.read (stackAddr (s.sp + 2#8))) (s.read (stackAddr (s.sp + 1#8))) + 1#16 ∧ t.sp = s.sp + 2#8 ∧
    t.a = s.a ∧ t.x = s.x ∧ t.y = s.y ∧ t.p = s.p ∧ SameMarks s t ∧ SameMemory s t

/-- R226, R222: RTS run on the state a JSR left, wherever the subroutine's PC is by then, returns to the byte after the JSR
with SP as it was. -/
def Obligations.RtsAfterJsrReturnsToTheCaller : Prop :=
  ∀ (addr pc' : Word) (s : State), ∃ t u, exec (.jsr addr) s = .next t ∧ exec .rts (t.withPC pc') = .next u ∧
    u.pc = s.pc ∧ u.sp = s.sp ∧ u.a = s.a ∧ u.x = s.x ∧ u.y = s.y ∧ u.p = s.p

/-- R223, R306: BRK pushes its own address and the status with bits 4 and 5 set, sets I, and goes to the vector. BRK's
length and the vector's reading are the spec's own choices (D12, D13). -/
def Obligations.BrkEntersThroughTheVector : Prop :=
  EncodesPlain 0x00#8 .brk ∧ outcomeOf .brk = .ok ∧ (lookup 0x00#8).mode.length = 1 ∧
  ∀ s : State, ∃ t, exec .brk s = .next t ∧ t.pc = word (s.read 0xFFFF#16) (s.read 0xFFFE#16) ∧ t.sp = s.sp - 3#8 ∧
    t.read (stackAddr s.sp) = hi (s.pc - 1#16) ∧ t.read (stackAddr (s.sp - 1#8)) = lo (s.pc - 1#16) ∧
    t.read (stackAddr (s.sp - 2#8)) = s.p ||| 0x30#8 ∧
    SameMemoryOutside [stackAddr s.sp, stackAddr (s.sp - 1#8), stackAddr (s.sp - 2#8)] s t ∧
    getFlag t.p .I = true ∧ SameFlagsOutside [.I] s.p t.p ∧ t.a = s.a ∧ t.x = s.x ∧ t.y = s.y ∧ SameMarks s t

/-- R224, R307: RTI pulls the six flags, keeps bits 4 and 5, then pulls PC with no adjustment. -/
def Obligations.RtiRestoresStatusAndPC : Prop :=
  EncodesPlain 0x40#8 .rti ∧ outcomeOf .rti = .ok ∧
  ∀ s : State, ∃ t, exec .rti s = .next t ∧
    (∀ f : Flag, getFlag t.p f = getFlag (s.read (stackAddr (s.sp + 1#8))) f) ∧ t.p &&& 0x30#8 = s.p &&& 0x30#8 ∧
    t.pc = word (s.read (stackAddr (s.sp + 3#8))) (s.read (stackAddr (s.sp + 2#8))) ∧ t.sp = s.sp + 3#8 ∧
    t.a = s.a ∧ t.x = s.x ∧ t.y = s.y ∧ SameMarks s t ∧ SameMemory s t

/-- R307: an RTI straight after a BRK's entry returns to the BRK's own address with the status and SP as they were. It rests
on BRK's length of 1, the spec's own choice (D12). -/
def Obligations.RtiAfterBrkReturnsToTheBrk : Prop :=
  ∀ (pc' : Word) (s : State), ∃ t u, exec .brk s = .next t ∧ exec .rti (t.withPC pc') = .next u ∧
    u.pc = s.pc - 1#16 ∧ u.p = s.p ∧ u.sp = s.sp ∧ u.a = s.a ∧ u.x = s.x ∧ u.y = s.y

/-! Stack, flags, transfers, NOP -/

/-- R240, R242: A, or the status with bits 4 and 5 set, is pushed, which is P itself where the live bits are set; no register
but SP changes. -/
def Obligations.PushesStoreAOrTheStatus : Prop :=
  EncodesPlain 0x48#8 .pha ∧ EncodesPlain 0x08#8 .php ∧
  (∀ s : State, s.p &&& 0x30#8 = 0x30#8 → ∃ t, exec .php s = .next t ∧ t.read (stackAddr s.sp) = s.p) ∧
  ∀ s : State, ∀ e ∈ [(Instr.pha, s.a), (.php, s.p ||| 0x30#8)],
    outcomeOf e.1 = .ok ∧
    ∃ t, exec e.1 s = .next t ∧ t.read (stackAddr s.sp) = e.2 ∧ SameMemoryOutside [stackAddr s.sp] s t ∧
      t.sp = s.sp - 1#8 ∧ t.pc = s.pc ∧ t.a = s.a ∧ t.x = s.x ∧ t.y = s.y ∧ t.p = s.p ∧ SameMarks s t

/-- R241, R243: PLA pulls A and sets Z and N; PLP pulls the six flags and keeps bits 4 and 5. -/
def Obligations.PullsLoadAOrTheStatus : Prop :=
  EncodesPlain 0x68#8 .pla ∧ EncodesPlain 0x28#8 .plp ∧ outcomeOf .pla = .ok ∧ outcomeOf .plp = .ok ∧
  ∀ s : State,
    let v := s.read (stackAddr (s.sp + 1#8))
    (∃ t, exec .pla s = .next t ∧ t.a = v ∧ ZNFrom t.p v ∧ SameFlagsOutside [.Z, .N] s.p t.p ∧ t.sp = s.sp + 1#8 ∧
      t.pc = s.pc ∧ t.x = s.x ∧ t.y = s.y ∧ SameMarks s t ∧ SameMemory s t) ∧
    ∃ t, exec .plp s = .next t ∧ (∀ f : Flag, getFlag t.p f = getFlag v f) ∧ t.p &&& 0x30#8 = s.p &&& 0x30#8 ∧
      t.sp = s.sp + 1#8 ∧ t.pc = s.pc ∧ t.a = s.a ∧ t.x = s.x ∧ t.y = s.y ∧ SameMarks s t ∧ SameMemory s t

/-- R245–R251: each sets or clears its one flag. (Which instructions may set V, the rest of R251, is
FlagsAreWrittenByTheirInstructionsOnly.) -/
def Obligations.FlagInstructionsWriteOneFlag : Prop :=
  (∀ e ∈ [(0x18#8, Instr.clc), (0x38#8, .sec), (0xD8#8, .cld), (0xF8#8, .sed), (0x58#8, .cli), (0x78#8, .sei), (0xB8#8, .clv)],
    EncodesPlain e.1 e.2) ∧
  ∀ s : State,
    ∀ e ∈ [(Instr.clc, Flag.C, false), (.sec, .C, true), (.cld, .D, false), (.sed, .D, true), (.cli, .I, false),
        (.sei, .I, true), (.clv, .V, false)],
      outcomeOf e.1 = .ok ∧
      ∃ t, exec e.1 s = .next t ∧ getFlag t.p e.2.1 = e.2.2 ∧ SameFlagsOutside [e.2.1] s.p t.p ∧
        t.pc = s.pc ∧ t.sp = s.sp ∧ t.a = s.a ∧ t.x = s.x ∧ t.y = s.y ∧ SameMarks s t ∧ SameMemory s t

/-- R255–R260: the destination register takes the source; all but TXS set Z and N from it. -/
def Obligations.TransfersCopyOneRegister : Prop :=
  (∀ e ∈ [(0xAA#8, Instr.tax), (0xA8#8, .tay), (0xBA#8, .tsx), (0x8A#8, .txa), (0x9A#8, .txs), (0x98#8, .tya)],
    EncodesPlain e.1 e.2) ∧
  ∀ s : State,
    -- instruction, then A, X, Y and SP after it
    (∀ e ∈ [(Instr.tax, s.a, s.a, s.y, s.sp), (.tay, s.a, s.x, s.a, s.sp), (.tsx, s.a, s.sp, s.y, s.sp),
        (.txa, s.x, s.x, s.y, s.sp), (.txs, s.a, s.x, s.y, s.x), (.tya, s.y, s.x, s.y, s.sp)],
      outcomeOf e.1 = .ok ∧
      ∃ t, exec e.1 s = .next t ∧ t.a = e.2.1 ∧ t.x = e.2.2.1 ∧ t.y = e.2.2.2.1 ∧ t.sp = e.2.2.2.2 ∧
        SameFlagsOutside [.Z, .N] s.p t.p ∧ t.pc = s.pc ∧ SameMarks s t ∧ SameMemory s t) ∧
    (∀ e ∈ [(Instr.tax, s.a), (.tay, s.a), (.tsx, s.sp), (.txa, s.x), (.tya, s.y)],
      ∃ t, exec e.1 s = .next t ∧ ZNFrom t.p e.2) ∧
    ∃ t, exec .txs s = .next t ∧ t.p = s.p

/-- R262, R293: NOP, by any of its seven bytes, changes nothing: registers, status, memory, clock and mark stay; the step's
PC and clock advance is the byte's length 1 and cost 2. NOP's effect and its six further bytes are the spec's own choices
(D9, D5). -/
def Obligations.NopChangesNothing : Prop :=
  (∀ b ∈ [0xEA#8, 0x1A#8, 0x3A#8, 0x5A#8, 0x7A#8, 0xDA#8, 0xFA#8],
    EncodesPlain b (.nop b) ∧ (lookup b).mode.length = 1 ∧ (lookup b).cycles = 2) ∧
  ∀ (opc : Byte) (s : State), outcomeOf (.nop opc) = .ok ∧ exec (.nop opc) s = .next s

/-! Trace and host -/

/-- R312, R321, R322: every trace line is 81 characters long, with each column range holding what R321 says: PC, the instruction's
bytes, the star, the mnemonic and operand text, the registers and the dot position; the operand text of each mode is R322's;
numbers are upper-case hexadecimal, the dot position is decimal and right-aligned. The layout is the spec's own choice (D22). -/
def Obligations.TraceLineIsEightyOneCharacters : Prop :=
  let pad (k : Nat) (t : Text) : Text := t ++ List.replicate (k - t.length) ' '
  let digit (n : Nat) : Char := "0123456789ABCDEF".toList.getD n '?'
  (∀ s : State,
    let cell := lookup (s.read s.pc)
    let operand := operandText s.fetchInstr s.enter
    (traceText s).length = 81 ∧ (traceText s).take 4 = hex4 s.pc ∧ ((traceText s).drop 4).take 2 = [' ', ' '] ∧
    ((traceText s).drop 6).take 8 =
      pad 8 (List.intercalate [' '] ((List.range cell.mode.length).map fun k => hex2 (s.read (s.pc + BitVec.ofNat 16 k)))) ∧
    (traceText s)[14]? = some ' ' ∧ (traceText s)[15]? = some (if cell.starred then '*' else ' ') ∧
    ((traceText s).drop 16).take 32 = pad 32 (mnemonic cell.tag ++ (if operand = [] then [] else ' ' :: operand)) ∧
    (traceText s).drop 48 =
      "A:".toList ++ hex2 s.a ++ " X:".toList ++ hex2 s.x ++ " Y:".toList ++ hex2 s.y ++ " P:".toList ++ hex2 s.p ++
        " SP:".toList ++ hex2 s.sp ++ " CYC:".toList ++ decimal3 (s.clock * 3 % 341)) ∧
  (∀ (i : Instr) (s : State) (b : Byte) (w : Word),
    let e := s.zpRead16 (b + s.x)
    let q := s.zpRead16 b
    (i.operand = .implied → operandText i s = []) ∧
    (i.operand = .accumulator → operandText i s = "A".toList) ∧
    (i.operand = .immediate b → operandText i s = "#$".toList ++ hex2 b) ∧
    (i.operand = .zeroPage b → operandText i s = "$".toList ++ hex2 b ++ " = ".toList ++ hex2 (s.read (zext16 b))) ∧
    (i.operand = .absolute w → (i.tag = .jmp ∨ i.tag = .jsr) → operandText i s = "$".toList ++ hex4 w) ∧
    (i.operand = .absolute w → i.tag ≠ .jmp → i.tag ≠ .jsr →
      operandText i s = "$".toList ++ hex4 w ++ " = ".toList ++ hex2 (s.read w)) ∧
    (i.operand = .relative b → operandText i s = "$".toList ++ hex4 (s.pc + sext16 b)) ∧
    (i.operand = .zeroPageX b →
      operandText i s =
        "$".toList ++ hex2 b ++ ",X @ ".toList ++ hex2 (b + s.x) ++ " = ".toList ++ hex2 (s.read (zext16 (b + s.x)))) ∧
    (i.operand = .zeroPageY b →
      operandText i s =
        "$".toList ++ hex2 b ++ ",Y @ ".toList ++ hex2 (b + s.y) ++ " = ".toList ++ hex2 (s.read (zext16 (b + s.y)))) ∧
    (i.operand = .absoluteX w →
      operandText i s =
        "$".toList ++ hex4 w ++ ",X @ ".toList ++ hex4 (w + zext16 s.x) ++ " = ".toList ++ hex2 (s.read (w + zext16 s.x))) ∧
    (i.operand = .absoluteY w →
      operandText i s =
        "$".toList ++ hex4 w ++ ",Y @ ".toList ++ hex4 (w + zext16 s.y) ++ " = ".toList ++ hex2 (s.read (w + zext16 s.y))) ∧
    (i.operand = .indirect w →
      operandText i s =
        "($".toList ++ hex4 w ++ ") = ".toList ++ hex4 (indirectTarget Config.jmpIndirectPageWrap w s)) ∧
    (i.operand = .indexedIndirect b →
      operandText i s =
        "($".toList ++ hex2 b ++ ",X) @ ".toList ++ hex2 (b + s.x) ++ " = ".toList ++ hex4 e ++ " = ".toList ++
          hex2 (s.read e)) ∧
    (i.operand = .indirectIndexed b →
      operandText i s =
        "($".toList ++ hex2 b ++ "),Y = ".toList ++ hex4 q ++ " @ ".toList ++ hex4 (q + zext16 s.y) ++ " = ".toList ++
          hex2 (s.read (q + zext16 s.y)))) ∧
  (∀ b : Byte, hex2 b = [digit (b.toNat / 16), digit (b.toNat % 16)]) ∧
  (∀ w : Word, hex4 w = [digit (w.toNat / 4096), digit (w.toNat / 256 % 16), digit (w.toNat / 16 % 16), digit (w.toNat % 16)]) ∧
  ∀ n < 341, decimal3 n = List.replicate (3 - (Nat.toDigits 10 n).length) ' ' ++ Nat.toDigits 10 n

/-- R341, R342: `goto` writes PC and nothing else, with `$`, with `0x` or bare; a bad address changes nothing. The details
are the spec's own choice (D27); the decimal count is log 11. -/
def Obligations.GotoWritesPCOnly : Prop :=
  (∀ (h : HarnessParams) (addr : Word) (ss : Session),
    runCommand h (.goto addr) ss = ({ ss with cpu := { ss.cpu with pc := addr } }, [])) ∧
  (∀ (h : HarnessParams) (ss : Session), runCommand h .gotoBad ss = (ss, [.badAddress])) ∧
  (∀ l ∈ ["goto 8000".toList, "goto $8000".toList, "goto 0x8000".toList, "goto 18000".toList],
    parseCommand l = .goto 0x8000#16) ∧
  parseCommand "goto xyz".toList = .gotoBad ∧ parseCommand "next abc".toList = .next 1 ∧
  parseCommand "test abc".toList = .test 1

/-- R335, R336, R338: with the log missing nothing changes; otherwise the run ends in Done with core and bus at power-on
state. The memory content is the OPEN parameter memInit (D26); the parameters are log 12. That this holds of a session in every
phase, so that a test started in Done runs again and a missing log leaves Done as it was, is the model's choice (log 17). -/
def Obligations.HarnessEndsAtPowerOnState : Prop :=
  ∀ (h : HarnessParams) (tolerance : Int) (ss : Session),
    (openLog h = none → harnessTest h tolerance ss = (ss, .missingLog)) ∧
    (openLog h ≠ none →
      (harnessTest h tolerance ss).1 = { ss with cpu := create h.memInit, phase := .done })

/-- R335, R336: a run records at most as many mismatches as its tolerance, and at most one where the tolerance starts at or below
zero; each recorded line is the trace line of the state after the lines before it, and differs from its reference within the
compare width; and where the tolerance exceeds the log, every line that differs is recorded. The order of compare, decrement,
step and stop is the spec's own choice (D25). -/
def Obligations.HarnessRecordsWithinTolerance : Prop :=
  ∀ (width : Nat) (log : List Text) (tolerance : Int) (cpu : State),
    let found := (harnessLoop width log tolerance 0 cpu []).2
    (found.length : Int) ≤ max tolerance 1 ∧
    (∀ m ∈ found,
      1 ≤ m.line ∧ (log[m.line - 1]?).map stripTerminator = some m.ref ∧
      m.live = traceText (stepsCpu (m.line - 1) cpu) ∧ m.live.take width ≠ m.ref.take width) ∧
    ((log.length : Int) < tolerance → ∀ (n : Nat) (raw : Text), log[n]? = some raw →
      (traceText (stepsCpu n cpu)).take width ≠ (stripTerminator raw).take width →
      ⟨n + 1, traceText (stepsCpu n cpu), stripTerminator raw⟩ ∈ found)

/-- R301, R355, R356: a run from a good state ends in a good state exactly when it does not end by an unimplemented outcome;
a run that ends by its stop address has PC there. How a run ends is the spec's own choice (D28, D6; log 4); that it ends by
the outcome where the budget or the stop address comes with it is the model's (log 13). -/
def Obligations.RunIsGoodUnlessUnimplemented : Prop :=
  ∀ (stop : Option Word) (budget : Nat) (s : State), s.Good →
    ((runUntil stop budget s).1.Good ↔ (runUntil stop budget s).2 ≠ .unimplemented) ∧
    (runUntil stop budget s).2 ≠ .stopped ∧
    ((runUntil stop budget s).2 = .stopAddress → stop = some (runUntil stop budget s).1.pc)

/-- R59, R323: the listed reads are all the reads. Two states with the same registers, clock and mark that agree at the
addresses the formatter's list reads have the same line and list, and the formatter stores nothing; two that agree at the
addresses the step's list reads take steps with the same list, the same registers, clock and mark, and the same stored bytes.
R58: the step's list reads every byte of the instruction; for the undocumented Immediate forms that is the model's reading (log 19).
That the line may be made apart from a step is the spec's own choice (D23); the lists are the model's (log 16). -/
def Obligations.StepAndTraceDependOnTheirReadsOnly : Prop :=
  ∀ s u : State,
    u.pc = s.pc ∧ u.sp = s.sp ∧ u.a = s.a ∧ u.x = s.x ∧ u.y = s.y ∧ u.p = s.p ∧ u.clock = s.clock ∧ u.unimpl = s.unimpl →
    ((∀ a ∈ readAddresses (traceAccesses s), u.read a = s.read a) →
      traceText u = traceText s ∧ traceAccesses u = traceAccesses s ∧ storedAddresses (traceAccesses s) = []) ∧
    ((∀ a ∈ readAddresses (stepAccesses s), u.read a = s.read a) →
      stepAccesses u = stepAccesses s ∧
      ∃ t v, step s = .next t ∧ step u = .next v ∧ v.pc = t.pc ∧ v.sp = t.sp ∧ v.a = t.a ∧ v.x = t.x ∧ v.y = t.y ∧
        v.p = t.p ∧ v.clock = t.clock ∧ v.unimpl = t.unimpl ∧
        ∀ a ∈ storedAddresses (stepAccesses s), v.read a = t.read a) ∧
    ∀ n < (lookup (s.read s.pc)).mode.length, s.pc + BitVec.ofNat 16 n ∈ readAddresses (stepAccesses s)
end

