-- ==== Sys2Proof/Laws/Bits.lean ====
section
/-! SUPPORT. Words and their two bytes, and the stack address. -/

namespace Sys2Proof

@[simp] theorem word_hi_lo (w : Word) : word (hi w) (lo w) = w := by
  apply BitVec.eq_of_getLsbD_eq
  intro k hk
  simp only [word, hi, lo, BitVec.getLsbD_append, BitVec.getLsbD_extractLsb']
  by_cases h : k < 8
  · simp [h]
  · have h1 : k - 8 < 8 := by omega
    have h2 : 8 + (k - 8) = k := by omega
    simp [h, h1, h2]

@[simp] theorem hi_word (h l : Byte) : hi (word h l) = h := by
  apply BitVec.eq_of_getLsbD_eq
  intro k hk
  simp only [word, hi, BitVec.getLsbD_extractLsb', BitVec.getLsbD_append]
  simp [hk]

@[simp] theorem lo_word (h l : Byte) : lo (word h l) = l := by
  apply BitVec.eq_of_getLsbD_eq
  intro k hk
  simp only [word, lo, BitVec.getLsbD_extractLsb', BitVec.getLsbD_append]
  simp [hk]

theorem word_toNat (h l : Byte) : (word h l).toNat = h.toNat * 256 + l.toNat := by
  have := l.isLt
  simp only [word, BitVec.toNat_append, Nat.shiftLeft_eq]
  rw [← Nat.shiftLeft_eq, ← Nat.shiftLeft_add_eq_or_of_lt this, Nat.shiftLeft_eq]

theorem zext16_toNat (b : Byte) : (zext16 b).toNat = b.toNat := by
  have := b.isLt
  simp only [zext16, BitVec.toNat_setWidth]
  omega

/-- The stack byte's address is 0x0100 + SP (R20). -/
theorem stackAddr_toNat : ∀ sp : Byte, (stackAddr sp).toNat = 0x100 + sp.toNat := by decide

@[simp] theorem stackAddr_inj (p q : Byte) : stackAddr p = stackAddr q ↔ p = q := by
  constructor
  · intro h
    have := congrArg BitVec.toNat h
    rw [stackAddr_toNat, stackAddr_toNat] at this
    exact BitVec.eq_of_toNat_eq (by omega)
  · rintro rfl; rfl

/-- The stack page is 0x0100 to 0x01FF (R23). -/
theorem stackAddr_range (sp : Byte) : 0x100 ≤ (stackAddr sp).toNat ∧ (stackAddr sp).toNat ≤ 0x1FF := by
  have := sp.isLt
  rw [stackAddr_toNat]
  omega

/-- An address above the stack page is no stack address. -/
theorem ne_stackAddr {a : Word} (h : 0x1FF < a.toNat) (sp : Byte) : a ≠ stackAddr sp := by
  rintro rfl
  have := stackAddr_range sp
  omega

end Sys2Proof
end

