-- ==== Sys2Proof/Laws/Bus.lean ====
section
/-! SUPPORT. The addresses of joined access lists, and which lists of a step store. -/

namespace Sys2Proof.Machine

@[simp] theorem readAddresses_append (l k : List Access) : readAddresses (l ++ k) = readAddresses l ++ readAddresses k := by
  induction l with
  | nil => rfl
  | cons c l ih => cases c <;> simp [readAddresses, ih]

@[simp] theorem storedAddresses_append (l k : List Access) :
    storedAddresses (l ++ k) = storedAddresses l ++ storedAddresses k := by
  induction l with
  | nil => rfl
  | cons c l ih => cases c <;> simp [storedAddresses, ih]

/-- R59 item 2: the resolver stores nothing. -/
@[simp] theorem resolverAccesses_store_nothing (op : Operand) (s : State) : storedAddresses (resolverAccesses op s) = [] := by
  cases op <;> rfl

/-- R58: the step's own operand read is no store. -/
@[simp] theorem immediateAccesses_store_nothing (i : Instr) (s : State) : storedAddresses (immediateAccesses i s) = [] := by
  unfold immediateAccesses
  split <;> try rfl
  split <;> rfl

/-- R59: what a step stores is what its handler stores. -/
theorem stepAccesses_stores (s : State) :
    storedAddresses (stepAccesses s) = storedAddresses (executeAccesses s.fetchInstr s.enter) := by
  simp [stepAccesses, storedAddresses]

end Sys2Proof.Machine
end

