-- ==== Sys2Proof/Laws/OpcodeTable.lean ====
section
/-! SUPPORT. The map of R84 and the per-tag list of R85 agree, and the map has the counts the spec gives. -/

namespace Sys2Proof

/-- Every byte's cell of R84 stands in the list of R85. -/
theorem lookup_listed (b : Byte) : (b, (lookup b).mode) ∈ (lookup b).tag.opcodes := by
  revert b; decide

/-- Every entry of R85 stands in the map of R84. -/
theorem listed_lookup (t : Tag) : ∀ e ∈ t.opcodes, (lookup e.1).tag = t ∧ (lookup e.1).mode = e.2 := by
  cases t <;> decide

/-- Every row of R84 has 16 cells, so `lookup`'s fallbacks are never reached. -/
theorem opcodeMap_complete : opcodeMap.length = 16 ∧ ∀ r ∈ opcodeMap, r.length = 16 := by decide

/-- A byte of an undocumented tag is outside the 151 documented opcodes. -/
theorem undocumented_starred (b : Byte) : (lookup b).tag.undocumented = true → (lookup b).starred = true := by
  revert b; decide

end Sys2Proof
end

