-- ==== Sys2Proof/Laws/Decode.lean ====
section
/-! SUPPORT. What the decoder leaves in an instruction: its tag, mode, operand and opcode byte; that it ignores the bytes its
mode does not use; and the fetch as a decoding of three bytes. -/

namespace Sys2Proof

variable (b0 b1 b2 : Byte)

@[simp] theorem build_tag (t : Tag) (m : Mode) : (build t b0 m b1 b2).tag = t := by cases t <;> rfl

@[simp] theorem operandOf_mode (m : Mode) : (operandOf m b1 b2).mode = m := by cases m <;> rfl

@[simp] theorem decodeBytes_tag : (decodeBytes b0 b1 b2).tag = (lookup b0).tag := build_tag _ _ _ _ _

/-- A tag whose constructor leaves the mode out stands in the map with that one mode. -/
theorem lookup_singleMode :
    (match (lookup b0).tag with
      | .inx | .dex | .iny | .dey | .rts | .brk | .rti | .pha | .pla | .php | .plp | .clc | .sec | .cld | .sed | .cli | .sei
      | .clv | .tax | .tay | .tsx | .txa | .txs | .tya | .nop | .kil => (lookup b0).mode == .implied
      | .bcc | .bcs | .beq | .bne | .bmi | .bpl | .bvc | .bvs => (lookup b0).mode == .relative
      | .jsr => (lookup b0).mode == .absolute
      | .aac | .arr | .asr | .atx | .axs | .xaa => (lookup b0).mode == .immediate
      | .lar | .sxa | .xas => (lookup b0).mode == .absoluteY
      | .sya => (lookup b0).mode == .absoluteX
      | _ => true) = true := by
  revert b0; decide

/-- R82: the operand is read in the mode of the map. -/
theorem decodeBytes_operand : (decodeBytes b0 b1 b2).operand = operandOf (lookup b0).mode b1 b2 := by
  have h := lookup_singleMode b0
  unfold decodeBytes
  cases ht : (lookup b0).tag <;> simp only [ht, beq_iff_eq] at h <;> simp [build, Instr.operand, operandOf, h]

@[simp] theorem decodeBytes_mode : (decodeBytes b0 b1 b2).mode = (lookup b0).mode := by
  rw [Instr.mode, decodeBytes_operand, operandOf_mode]

/-- A tag that does not carry its byte has, in the map's mode, the first byte of its list there. -/
theorem lookup_opcodeIn :
    (match (lookup b0).tag with
      | .nop | .aac | .dop | .kil | .top => true
      | .sbc => b0 == 0xEB#8 || (lookup b0).tag.opcodeIn (lookup b0).mode == b0
      | _ => (lookup b0).tag.opcodeIn (lookup b0).mode == b0) = true := by
  revert b0; decide

/-- R83: an instruction's opcode byte is the one it was decoded from. -/
@[simp] theorem decodeBytes_opcode : (decodeBytes b0 b1 b2).opcode = b0 := by
  have h := lookup_opcodeIn b0
  rw [Instr.opcode, decodeBytes_mode]
  unfold decodeBytes
  rw [build_tag]
  cases ht : (lookup b0).tag <;> simp only [ht, beq_iff_eq, Bool.or_eq_true] at h <;> simp [build, Instr.carriedByte, h]
  by_cases hb : b0 = 0xEB#8
  · simp [hb]
  · simpa [hb] using h

/-- R88: two operand byte pairs that give the same operand give the same instruction. -/
theorem decodeBytes_congr (c1 c2 : Byte) (h : operandOf (lookup b0).mode b1 b2 = operandOf (lookup b0).mode c1 c2) :
    decodeBytes b0 b1 b2 = decodeBytes b0 c1 c2 := by
  have h1 := (decodeBytes_operand b0 b1 b2).trans (h.trans (decodeBytes_operand b0 c1 c2).symm)
  unfold decodeBytes at *
  cases ht : (lookup b0).tag <;> simp only [ht, build, Instr.operand] at h1 ⊢ <;> simp_all

/-- R80: without operand bytes neither byte matters. -/
theorem decodeBytes_unused_both (h : (lookup b0).mode.operandBytes = 0) : decodeBytes b0 b1 b2 = decodeBytes b0 0 0 := by
  apply decodeBytes_congr
  revert h
  cases (lookup b0).mode <;> simp [Mode.operandBytes, operandOf]

/-- R80: with one operand byte the second does not matter. -/
theorem decodeBytes_unused_second (h : (lookup b0).mode.operandBytes = 1) : decodeBytes b0 b1 b2 = decodeBytes b0 b1 0 := by
  apply decodeBytes_congr
  revert h
  cases (lookup b0).mode <;> simp [Mode.operandBytes, operandOf]

namespace Machine

/-- The fetch as a decoding of the three bytes at PC, of which it uses as many as the length. -/
theorem State.fetchInstr_eq (s : State) :
    s.fetchInstr = decodeBytes (s.read s.pc) (s.read (s.pc + 1#16)) (s.read (s.pc + 2#16)) := by
  unfold State.fetchInstr
  split
  next h => rw [decodeBytes_unused_both _ (s.read (s.pc + 1#16)) (s.read (s.pc + 2#16)) h]
  next h => rw [decodeBytes_unused_second _ _ (s.read (s.pc + 2#16)) h]
  next => rfl

@[simp] theorem State.fetchInstr_tag (s : State) : s.fetchInstr.tag = (lookup (s.read s.pc)).tag := by
  rw [State.fetchInstr_eq, decodeBytes_tag]

@[simp] theorem State.fetchInstr_opcode (s : State) : s.fetchInstr.opcode = s.read s.pc := by
  rw [State.fetchInstr_eq, decodeBytes_opcode]

@[simp] theorem State.fetchInstr_mode (s : State) : s.fetchInstr.mode = (lookup (s.read s.pc)).mode := by
  rw [State.fetchInstr_eq, decodeBytes_mode]

end Machine

end Sys2Proof
end

