-- ==== Sys2Proof/Laws/Flags.lean ====
section
/-! SUPPORT. What each flag computation leaves in each bit of the status byte. -/

namespace Sys2Proof.Machine

/-- Bit k after one bit n is replaced by mask and shift. -/
theorem getLsbD_replaceBit (p : Byte) (n k : Nat) (b : Bool) (hn : n < 8) (hk : k < 8) :
    ((p &&& ~~~(1#8 <<< n)) ||| ((BitVec.ofBool b).setWidth 8 <<< n)).getLsbD k = if k = n then b else p.getLsbD k := by
  rcases Nat.lt_trichotomy k n with h | h | h
  · simp [hk, h, Nat.ne_of_lt h]
  · subst h; simp [hk]
  · have h1 : ¬ k < n := by omega
    have h2 : k - n ≠ 0 := by omega
    have h3 : k ≠ n := by omega
    simp [hk, h1, h2, h3]

/-- The bit of a status byte after one flag is written. -/
theorem getLsbD_setFlag (p : Byte) (f : Flag) (b : Bool) (k : Nat) (hk : k < 8) :
    (setFlag p f b).getLsbD k = if k = f.pos then b else p.getLsbD k :=
  getLsbD_replaceBit p f.pos k b (by cases f <;> decide) hk

/-- Reading a flag after writing one. -/
@[simp] theorem getFlag_setFlag (p : Byte) (f g : Flag) (b : Bool) :
    getFlag (setFlag p f b) g = if g = f then b else getFlag p g := by
  unfold getFlag
  rw [getLsbD_setFlag p f b g.pos (by cases g <;> decide)]
  cases f <;> cases g <;> simp [Flag.pos]

/-- Writing a flag leaves bits 4 and 5. -/
@[simp] theorem setFlag_forced (p : Byte) (f : Flag) (b : Bool) : setFlag p f b &&& 0x30#8 = p &&& 0x30#8 := by
  apply BitVec.eq_of_getLsbD_eq
  intro k hk
  rw [BitVec.getLsbD_and, BitVec.getLsbD_and, getLsbD_setFlag p f b k hk]
  have : k = 0 ∨ k = 1 ∨ k = 2 ∨ k = 3 ∨ k = 4 ∨ k = 5 ∨ k = 6 ∨ k = 7 := by omega
  rcases this with rfl | rfl | rfl | rfl | rfl | rfl | rfl | rfl <;> cases f <;> simp [Flag.pos]

/-- Reading a flag after SetZN. -/
@[simp] theorem getFlag_setZN (p r : Byte) (g : Flag) :
    getFlag (setZN p r) g = if g = .N then r.getLsbD 7 else if g = .Z then r == 0#8 else getFlag p g := by
  simp only [setZN, getFlag_setFlag]

@[simp] theorem setZN_forced (p r : Byte) : setZN p r &&& 0x30#8 = p &&& 0x30#8 := by simp [setZN]

/-- A pulled status takes the six flags of the byte. -/
@[simp] theorem getFlag_statusPulled (p v : Byte) (g : Flag) : getFlag (statusPulled p v) g = getFlag v g := by
  cases g <;> simp [getFlag, statusPulled, Flag.pos]

/-- A pulled status keeps bits 4 and 5. -/
@[simp] theorem statusPulled_forced (p v : Byte) : statusPulled p v &&& 0x30#8 = p &&& 0x30#8 := by
  apply BitVec.eq_of_getLsbD_eq
  intro k hk
  have : k = 0 ∨ k = 1 ∨ k = 2 ∨ k = 3 ∨ k = 4 ∨ k = 5 ∨ k = 6 ∨ k = 7 := by omega
  rcases this with rfl | rfl | rfl | rfl | rfl | rfl | rfl | rfl <;> simp [statusPulled]

/-- A pushed status carries the six flags. -/
@[simp] theorem getFlag_statusPushed (p : Byte) (g : Flag) : getFlag (statusPushed p) g = getFlag p g := by
  cases g <;> simp [getFlag, statusPushed, Flag.pos]

/-- Two status bytes with the same flags and the same bits 4 and 5 are the same byte. -/
theorem status_ext {p q : Byte} (h : ∀ g, getFlag p g = getFlag q g) (hb : p &&& 0x30#8 = q &&& 0x30#8) : p = q := by
  apply BitVec.eq_of_getLsbD_eq
  intro k hk
  have h4 := congrArg (fun b : Byte => b.getLsbD 4) hb
  have h5 := congrArg (fun b : Byte => b.getLsbD 5) hb
  have : k = 0 ∨ k = 1 ∨ k = 2 ∨ k = 3 ∨ k = 4 ∨ k = 5 ∨ k = 6 ∨ k = 7 := by omega
  rcases this with rfl | rfl | rfl | rfl | rfl | rfl | rfl | rfl
  · exact h .C
  · exact h .Z
  · exact h .I
  · exact h .D
  · simpa using h4
  · simpa using h5
  · exact h .V
  · exact h .N

@[simp] theorem aluStatus_forced (p : Byte) (r : AluResult) : aluStatus p r &&& 0x30#8 = p &&& 0x30#8 := by simp [aluStatus]

@[simp] theorem shiftStatus_forced (p : Byte) (r : ShiftResult) : shiftStatus p r &&& 0x30#8 = p &&& 0x30#8 := by
  simp [shiftStatus]

@[simp] theorem compareStatus_forced (p reg m : Byte) : compareStatus p reg m &&& 0x30#8 = p &&& 0x30#8 := by
  simp [compareStatus]

@[simp] theorem bitStatus_forced (p a m : Byte) : bitStatus p a m &&& 0x30#8 = p &&& 0x30#8 := by simp [bitStatus]

/-- Reading a flag after ADC or SBC. -/
@[simp] theorem getFlag_aluStatus (p : Byte) (r : AluResult) (g : Flag) :
    getFlag (aluStatus p r) g =
      if g = .N then r.value.getLsbD 7 else if g = .Z then r.value == 0#8 else if g = .V then r.overflow
      else if g = .C then r.carry else getFlag p g := by
  simp only [aluStatus, getFlag_setZN, getFlag_setFlag]

/-- Reading a flag after a shift or rotate. -/
@[simp] theorem getFlag_shiftStatus (p : Byte) (r : ShiftResult) (g : Flag) :
    getFlag (shiftStatus p r) g =
      if g = .N then r.value.getLsbD 7 else if g = .Z then r.value == 0#8 else if g = .C then r.carry else getFlag p g := by
  simp only [shiftStatus, getFlag_setZN, getFlag_setFlag]

/-- Reading a flag after a compare. -/
@[simp] theorem getFlag_compareStatus (p reg m : Byte) (g : Flag) :
    getFlag (compareStatus p reg m) g =
      if g = .N then (BitVec.ofInt 8 ((reg.toNat : Int) - (m.toNat : Int))).getLsbD 7
      else if g = .Z then BitVec.ofInt 8 ((reg.toNat : Int) - (m.toNat : Int)) == 0#8
      else if g = .C then decide (m.toNat ≤ reg.toNat) else getFlag p g := by
  simp only [compareStatus, getFlag_setZN, getFlag_setFlag]

/-- Reading a flag after BIT. -/
@[simp] theorem getFlag_bitStatus (p a m : Byte) (g : Flag) :
    getFlag (bitStatus p a m) g =
      if g = .N then m.getLsbD 7 else if g = .V then m.getLsbD 6 else if g = .Z then (a &&& m) == 0#8 else getFlag p g := by
  simp only [bitStatus, getFlag_setFlag]

end Sys2Proof.Machine
end

