-- ==== Sys2Proof/Laws/State.lean ====
section
/-! SUPPORT. One lemma per field per update of State, and what each update leaves readable in memory. -/

namespace Sys2Proof.Machine

variable (s : State)

@[simp] theorem State.withPC_pc (v : Word) : (s.withPC v).pc = v := rfl
@[simp] theorem State.withPC_sp (v : Word) : (s.withPC v).sp = s.sp := rfl
@[simp] theorem State.withPC_a (v : Word) : (s.withPC v).a = s.a := rfl
@[simp] theorem State.withPC_x (v : Word) : (s.withPC v).x = s.x := rfl
@[simp] theorem State.withPC_y (v : Word) : (s.withPC v).y = s.y := rfl
@[simp] theorem State.withPC_p (v : Word) : (s.withPC v).p = s.p := rfl
@[simp] theorem State.withPC_clock (v : Word) : (s.withPC v).clock = s.clock := rfl
@[simp] theorem State.withPC_unimpl (v : Word) : (s.withPC v).unimpl = s.unimpl := rfl
@[simp] theorem State.withPC_mem (v : Word) : (s.withPC v).mem = s.mem := rfl
@[simp] theorem State.withPC_read (v : Word) (a : Word) : (s.withPC v).read a = s.read a := rfl

@[simp] theorem State.withSP_pc (v : Byte) : (s.withSP v).pc = s.pc := rfl
@[simp] theorem State.withSP_sp (v : Byte) : (s.withSP v).sp = v := rfl
@[simp] theorem State.withSP_a (v : Byte) : (s.withSP v).a = s.a := rfl
@[simp] theorem State.withSP_x (v : Byte) : (s.withSP v).x = s.x := rfl
@[simp] theorem State.withSP_y (v : Byte) : (s.withSP v).y = s.y := rfl
@[simp] theorem State.withSP_p (v : Byte) : (s.withSP v).p = s.p := rfl
@[simp] theorem State.withSP_clock (v : Byte) : (s.withSP v).clock = s.clock := rfl
@[simp] theorem State.withSP_unimpl (v : Byte) : (s.withSP v).unimpl = s.unimpl := rfl
@[simp] theorem State.withSP_mem (v : Byte) : (s.withSP v).mem = s.mem := rfl
@[simp] theorem State.withSP_read (v : Byte) (a : Word) : (s.withSP v).read a = s.read a := rfl

@[simp] theorem State.withA_pc (v : Byte) : (s.withA v).pc = s.pc := rfl
@[simp] theorem State.withA_sp (v : Byte) : (s.withA v).sp = s.sp := rfl
@[simp] theorem State.withA_a (v : Byte) : (s.withA v).a = v := rfl
@[simp] theorem State.withA_x (v : Byte) : (s.withA v).x = s.x := rfl
@[simp] theorem State.withA_y (v : Byte) : (s.withA v).y = s.y := rfl
@[simp] theorem State.withA_p (v : Byte) : (s.withA v).p = s.p := rfl
@[simp] theorem State.withA_clock (v : Byte) : (s.withA v).clock = s.clock := rfl
@[simp] theorem State.withA_unimpl (v : Byte) : (s.withA v).unimpl = s.unimpl := rfl
@[simp] theorem State.withA_mem (v : Byte) : (s.withA v).mem = s.mem := rfl
@[simp] theorem State.withA_read (v : Byte) (a : Word) : (s.withA v).read a = s.read a := rfl

@[simp] theorem State.withX_pc (v : Byte) : (s.withX v).pc = s.pc := rfl
@[simp] theorem State.withX_sp (v : Byte) : (s.withX v).sp = s.sp := rfl
@[simp] theorem State.withX_a (v : Byte) : (s.withX v).a = s.a := rfl
@[simp] theorem State.withX_x (v : Byte) : (s.withX v).x = v := rfl
@[simp] theorem State.withX_y (v : Byte) : (s.withX v).y = s.y := rfl
@[simp] theorem State.withX_p (v : Byte) : (s.withX v).p = s.p := rfl
@[simp] theorem State.withX_clock (v : Byte) : (s.withX v).clock = s.clock := rfl
@[simp] theorem State.withX_unimpl (v : Byte) : (s.withX v).unimpl = s.unimpl := rfl
@[simp] theorem State.withX_mem (v : Byte) : (s.withX v).mem = s.mem := rfl
@[simp] theorem State.withX_read (v : Byte) (a : Word) : (s.withX v).read a = s.read a := rfl

@[simp] theorem State.withY_pc (v : Byte) : (s.withY v).pc = s.pc := rfl
@[simp] theorem State.withY_sp (v : Byte) : (s.withY v).sp = s.sp := rfl
@[simp] theorem State.withY_a (v : Byte) : (s.withY v).a = s.a := rfl
@[simp] theorem State.withY_x (v : Byte) : (s.withY v).x = s.x := rfl
@[simp] theorem State.withY_y (v : Byte) : (s.withY v).y = v := rfl
@[simp] theorem State.withY_p (v : Byte) : (s.withY v).p = s.p := rfl
@[simp] theorem State.withY_clock (v : Byte) : (s.withY v).clock = s.clock := rfl
@[simp] theorem State.withY_unimpl (v : Byte) : (s.withY v).unimpl = s.unimpl := rfl
@[simp] theorem State.withY_mem (v : Byte) : (s.withY v).mem = s.mem := rfl
@[simp] theorem State.withY_read (v : Byte) (a : Word) : (s.withY v).read a = s.read a := rfl

@[simp] theorem State.withP_pc (v : Byte) : (s.withP v).pc = s.pc := rfl
@[simp] theorem State.withP_sp (v : Byte) : (s.withP v).sp = s.sp := rfl
@[simp] theorem State.withP_a (v : Byte) : (s.withP v).a = s.a := rfl
@[simp] theorem State.withP_x (v : Byte) : (s.withP v).x = s.x := rfl
@[simp] theorem State.withP_y (v : Byte) : (s.withP v).y = s.y := rfl
@[simp] theorem State.withP_p (v : Byte) : (s.withP v).p = v := rfl
@[simp] theorem State.withP_clock (v : Byte) : (s.withP v).clock = s.clock := rfl
@[simp] theorem State.withP_unimpl (v : Byte) : (s.withP v).unimpl = s.unimpl := rfl
@[simp] theorem State.withP_mem (v : Byte) : (s.withP v).mem = s.mem := rfl
@[simp] theorem State.withP_read (v : Byte) (a : Word) : (s.withP v).read a = s.read a := rfl

@[simp] theorem State.write_pc (b : Word) (v : Byte) : (s.write b v).pc = s.pc := rfl
@[simp] theorem State.write_sp (b : Word) (v : Byte) : (s.write b v).sp = s.sp := rfl
@[simp] theorem State.write_a (b : Word) (v : Byte) : (s.write b v).a = s.a := rfl
@[simp] theorem State.write_x (b : Word) (v : Byte) : (s.write b v).x = s.x := rfl
@[simp] theorem State.write_y (b : Word) (v : Byte) : (s.write b v).y = s.y := rfl
@[simp] theorem State.write_p (b : Word) (v : Byte) : (s.write b v).p = s.p := rfl
@[simp] theorem State.write_clock (b : Word) (v : Byte) : (s.write b v).clock = s.clock := rfl
@[simp] theorem State.write_unimpl (b : Word) (v : Byte) : (s.write b v).unimpl = s.unimpl := rfl
@[simp] theorem State.write_mem (b : Word) (v : Byte) : (s.write b v).mem = s.mem.write b.toNat v := rfl

@[simp] theorem State.tick_pc (n : Nat) : (s.tick n).pc = s.pc := rfl
@[simp] theorem State.tick_sp (n : Nat) : (s.tick n).sp = s.sp := rfl
@[simp] theorem State.tick_a (n : Nat) : (s.tick n).a = s.a := rfl
@[simp] theorem State.tick_x (n : Nat) : (s.tick n).x = s.x := rfl
@[simp] theorem State.tick_y (n : Nat) : (s.tick n).y = s.y := rfl
@[simp] theorem State.tick_p (n : Nat) : (s.tick n).p = s.p := rfl
@[simp] theorem State.tick_clock (n : Nat) : (s.tick n).clock = s.clock + n := rfl
@[simp] theorem State.tick_unimpl (n : Nat) : (s.tick n).unimpl = s.unimpl := rfl
@[simp] theorem State.tick_mem (n : Nat) : (s.tick n).mem = s.mem := rfl
@[simp] theorem State.tick_read (n : Nat) (a : Word) : (s.tick n).read a = s.read a := rfl

@[simp] theorem State.raiseUnimplemented_pc (i : Instr) : (s.raiseUnimplemented i).pc = s.pc := rfl
@[simp] theorem State.raiseUnimplemented_sp (i : Instr) : (s.raiseUnimplemented i).sp = s.sp := rfl
@[simp] theorem State.raiseUnimplemented_a (i : Instr) : (s.raiseUnimplemented i).a = s.a := rfl
@[simp] theorem State.raiseUnimplemented_x (i : Instr) : (s.raiseUnimplemented i).x = s.x := rfl
@[simp] theorem State.raiseUnimplemented_y (i : Instr) : (s.raiseUnimplemented i).y = s.y := rfl
@[simp] theorem State.raiseUnimplemented_p (i : Instr) : (s.raiseUnimplemented i).p = s.p := rfl
@[simp] theorem State.raiseUnimplemented_clock (i : Instr) : (s.raiseUnimplemented i).clock = s.clock := rfl
@[simp] theorem State.raiseUnimplemented_unimpl (i : Instr) : (s.raiseUnimplemented i).unimpl = s.unimpl.or (some (i.tag, i.opcode)) := rfl
@[simp] theorem State.raiseUnimplemented_mem (i : Instr) : (s.raiseUnimplemented i).mem = s.mem := rfl
@[simp] theorem State.raiseUnimplemented_read (i : Instr) (a : Word) : (s.raiseUnimplemented i).read a = s.read a := rfl

@[simp] theorem State.withFlag_pc (f : Flag) (b : Bool) : (s.withFlag f b).pc = s.pc := rfl
@[simp] theorem State.withFlag_sp (f : Flag) (b : Bool) : (s.withFlag f b).sp = s.sp := rfl
@[simp] theorem State.withFlag_a (f : Flag) (b : Bool) : (s.withFlag f b).a = s.a := rfl
@[simp] theorem State.withFlag_x (f : Flag) (b : Bool) : (s.withFlag f b).x = s.x := rfl
@[simp] theorem State.withFlag_y (f : Flag) (b : Bool) : (s.withFlag f b).y = s.y := rfl
@[simp] theorem State.withFlag_p (f : Flag) (b : Bool) : (s.withFlag f b).p = setFlag s.p f b := rfl
@[simp] theorem State.withFlag_clock (f : Flag) (b : Bool) : (s.withFlag f b).clock = s.clock := rfl
@[simp] theorem State.withFlag_unimpl (f : Flag) (b : Bool) : (s.withFlag f b).unimpl = s.unimpl := rfl
@[simp] theorem State.withFlag_mem (f : Flag) (b : Bool) : (s.withFlag f b).mem = s.mem := rfl
@[simp] theorem State.withFlag_read (f : Flag) (b : Bool) (a : Word) : (s.withFlag f b).read a = s.read a := rfl

@[simp] theorem State.withZN_pc (r : Byte) : (s.withZN r).pc = s.pc := rfl
@[simp] theorem State.withZN_sp (r : Byte) : (s.withZN r).sp = s.sp := rfl
@[simp] theorem State.withZN_a (r : Byte) : (s.withZN r).a = s.a := rfl
@[simp] theorem State.withZN_x (r : Byte) : (s.withZN r).x = s.x := rfl
@[simp] theorem State.withZN_y (r : Byte) : (s.withZN r).y = s.y := rfl
@[simp] theorem State.withZN_p (r : Byte) : (s.withZN r).p = setZN s.p r := rfl
@[simp] theorem State.withZN_clock (r : Byte) : (s.withZN r).clock = s.clock := rfl
@[simp] theorem State.withZN_unimpl (r : Byte) : (s.withZN r).unimpl = s.unimpl := rfl
@[simp] theorem State.withZN_mem (r : Byte) : (s.withZN r).mem = s.mem := rfl
@[simp] theorem State.withZN_read (r : Byte) (a : Word) : (s.withZN r).read a = s.read a := rfl

theorem State.enter_pc : s.enter.pc = s.pc + BitVec.ofNat 16 (lookup (s.read s.pc)).mode.length := rfl

@[simp] theorem State.enter_sp : s.enter.sp = s.sp := rfl
@[simp] theorem State.enter_a : s.enter.a = s.a := rfl
@[simp] theorem State.enter_x : s.enter.x = s.x := rfl
@[simp] theorem State.enter_y : s.enter.y = s.y := rfl
@[simp] theorem State.enter_p : s.enter.p = s.p := rfl
@[simp] theorem State.enter_clock : s.enter.clock = s.clock := rfl
@[simp] theorem State.enter_unimpl : s.enter.unimpl = s.unimpl := rfl
@[simp] theorem State.enter_mem : s.enter.mem = s.mem := rfl
@[simp] theorem State.enter_read (a : Word) : s.enter.read a = s.read a := rfl

/-- Two states with the same fields are the same. -/
theorem State.ext_fields (t : State) (hpc : t.pc = s.pc) (hsp : t.sp = s.sp) (ha : t.a = s.a) (hx : t.x = s.x) (hy : t.y = s.y)
    (hp : t.p = s.p) (hc : t.clock = s.clock) (hu : t.unimpl = s.unimpl) (hm : t.mem = s.mem) : t = s := by
  cases s; cases t; simp_all

end Sys2Proof.Machine
end

