-- ==== Sys2Proof/Laws/Memory.lean ====
section
/-! SUPPORT. Memory: what a byte reads after a write, that every memory operation keeps the canonical form, and that
canonical memories with the same bytes are equal. -/

namespace Sys2Proof.Machine

theorem Memory.read_erase (m : Memory) (a b : Nat) :
    (m.erase a).read b = if b = a then Memory.unlisted else m.read b := by
  induction m with
  | nil => simp [Memory.erase, Memory.read]
  | cons c m ih =>
    obtain ⟨k, w⟩ := c
    by_cases hk : k = a
    · subst hk
      by_cases hb : b = k
      · subst hb; simpa [Memory.erase] using ih
      · simp [Memory.erase, Memory.read, ih, hb, Ne.symm hb]
    · by_cases hb : b = a
      · subst hb; simp [Memory.erase, Memory.read, ih, hk]
      · by_cases hkb : k = b <;> simp [Memory.erase, Memory.read, ih, hk, hb, hkb]

theorem Memory.read_insert (m : Memory) (a b : Nat) (v : Byte) (h : m.read a = Memory.unlisted)
    (hm : ∀ c ∈ m, c.1 ≠ a) : (m.insert a v).read b = if b = a then v else m.read b := by
  induction m with
  | nil => simp [Memory.insert, Memory.read, eq_comm (a := a)]
  | cons c m ih =>
    obtain ⟨k, w⟩ := c
    have hka : k ≠ a := hm (k, w) (by simp)
    by_cases hlt : a < k
    · simp [Memory.insert, Memory.read, hlt, eq_comm (a := a)]
    · have ih' := ih (by simpa [Memory.read, hka] using h) (fun c hc => hm c (by simp [hc]))
      by_cases hkb : k = b
      · have hb : b ≠ a := hkb ▸ hka
        subst hkb
        simp [Memory.insert, Memory.read, hlt, hb]
      · simp [Memory.insert, Memory.read, hlt, hkb, ih']

theorem Memory.erase_no_cell (m : Memory) (a : Nat) : ∀ c ∈ m.erase a, c.1 ≠ a := by
  induction m with
  | nil => simp [Memory.erase]
  | cons c m ih =>
    obtain ⟨k, w⟩ := c
    by_cases hk : k = a
    · simpa [Memory.erase, hk] using ih
    · intro c hc
      simp only [Memory.erase, hk, if_false, List.mem_cons] at hc
      rcases hc with rfl | hc
      · exact hk
      · exact ih c hc

/-- A byte after a write: the value written at its address, the old byte everywhere else; for any list of cells. -/
theorem Memory.read_write (m : Memory) (a b : Nat) (v : Byte) :
    (m.write a v).read b = if b = a then v else m.read b := by
  unfold Memory.write
  split
  · next h => rw [Memory.read_erase, h]
  · rw [Memory.read_insert _ _ _ _ (by simp [Memory.read_erase]) (Memory.erase_no_cell m a), Memory.read_erase]
    split <;> rfl

/-- A byte of the bus after a write. -/
theorem State.read_write (s : State) (a b : Word) (v : Byte) : (s.write a v).read b = if b = a then v else s.read b := by
  simp only [State.read, State.write, Memory.read_write, BitVec.toNat_inj]

theorem Memory.risesFrom_mono {l k : Nat} {m : Memory} (h : m.risesFrom l = true) (hk : k ≤ l) : m.risesFrom k = true := by
  cases m with
  | nil => rfl
  | cons c m =>
    simp only [Memory.risesFrom, Bool.and_eq_true, decide_eq_true_eq] at h ⊢
    exact ⟨Nat.le_trans hk h.1, h.2⟩

theorem Memory.risesFrom_erase {m : Memory} {l : Nat} (a : Nat) (h : m.risesFrom l = true) : (m.erase a).risesFrom l = true := by
  induction m generalizing l with
  | nil => rfl
  | cons c m ih =>
    obtain ⟨k, w⟩ := c
    simp only [Memory.risesFrom, Bool.and_eq_true, decide_eq_true_eq] at h
    by_cases hk : k = a
    · simpa [Memory.erase, hk] using ih (Memory.risesFrom_mono h.2 (by omega))
    · simpa [Memory.erase, hk, Memory.risesFrom, h.1] using ih h.2

theorem Memory.risesFrom_insert {m : Memory} {l a : Nat} {v : Byte} (h : m.risesFrom l = true) (ha : l ≤ a)
    (hm : ∀ c ∈ m, c.1 ≠ a) : (m.insert a v).risesFrom l = true := by
  induction m generalizing l with
  | nil => simpa [Memory.insert, Memory.risesFrom] using ha
  | cons c m ih =>
    obtain ⟨k, w⟩ := c
    have hka : k ≠ a := hm (k, w) (by simp)
    simp only [Memory.risesFrom, Bool.and_eq_true, decide_eq_true_eq] at h
    by_cases hlt : a < k
    · simp [Memory.insert, hlt, Memory.risesFrom, ha, h.2]
    · have := ih h.2 (by omega) (fun c hc => hm c (by simp [hc]))
      simpa [Memory.insert, hlt, Memory.risesFrom, h.1] using this

theorem Memory.mem_erase {m : Memory} {a : Nat} {c : Host.Cell} (h : c ∈ m.erase a) : c ∈ m := by
  induction m with
  | nil => simp [Memory.erase] at h
  | cons d m ih =>
    by_cases hk : d.1 = a
    · simp only [Memory.erase, hk, if_true] at h
      exact List.mem_cons_of_mem _ (ih h)
    · simp only [Memory.erase, hk, if_false, List.mem_cons] at h
      rcases h with rfl | h
      · simp
      · exact List.mem_cons_of_mem _ (ih h)

theorem Memory.mem_insert {m : Memory} {a : Nat} {v : Byte} {c : Host.Cell} (h : c ∈ m.insert a v) : c = (a, v) ∨ c ∈ m := by
  induction m with
  | nil => simpa [Memory.insert] using h
  | cons d m ih =>
    simp only [Memory.insert] at h
    split at h
    · simpa using h
    · rcases List.mem_cons.1 h with rfl | h
      · simp
      · rcases ih h with h | h <;> simp [h]

/-- A write keeps the canonical form. -/
theorem Memory.wf_write {m : Memory} {a : Nat} (v : Byte) (h : m.wf = true) (ha : a < 0x10000) : (m.write a v).wf = true := by
  simp only [Memory.wf, Bool.and_eq_true, List.all_eq_true, decide_eq_true_eq] at h ⊢
  unfold Memory.write
  split
  · exact ⟨Memory.risesFrom_erase a h.1, fun c hc => h.2 c (Memory.mem_erase hc)⟩
  · next hv =>
    refine ⟨Memory.risesFrom_insert (Memory.risesFrom_erase a h.1) (Nat.zero_le _) (Memory.erase_no_cell m a), fun c hc => ?_⟩
    rcases Memory.mem_insert hc with rfl | hc
    · exact ⟨ha, hv⟩
    · exact h.2 c (Memory.mem_erase hc)

theorem State.wf_write {s : State} (a : Word) (v : Byte) (h : s.mem.wf = true) : (s.write a v).mem.wf = true :=
  Memory.wf_write v h a.isLt

/-- The reset memory is in the canonical form. -/
theorem State.reset_mem_wf : State.reset.mem.wf = true := rfl

theorem Memory.read_below {m : Memory} {l a : Nat} (h : m.risesFrom l = true) (ha : a < l) : m.read a = Memory.unlisted := by
  induction m generalizing l with
  | nil => rfl
  | cons c m ih =>
    obtain ⟨k, w⟩ := c
    simp only [Memory.risesFrom, Bool.and_eq_true, decide_eq_true_eq] at h
    have : k ≠ a := by omega
    simpa [Memory.read, this] using ih h.2 (by omega)

theorem Memory.eq_of_read_eq_from {m n : Memory} {l : Nat} (hm : m.risesFrom l = true) (hn : n.risesFrom l = true)
    (hmv : ∀ c ∈ m, c.2 ≠ Memory.unlisted) (hnv : ∀ c ∈ n, c.2 ≠ Memory.unlisted)
    (h : ∀ a, m.read a = n.read a) : m = n := by
  induction m generalizing n l with
  | nil =>
    cases n with
    | nil => rfl
    | cons c n => exact absurd (by simpa [Memory.read] using (h c.1).symm) (hnv c (by simp))
  | cons c m ih =>
    obtain ⟨k, v⟩ := c
    cases n with
    | nil => exact absurd (by simpa [Memory.read] using h k) (hmv (k, v) (by simp))
    | cons d n =>
      obtain ⟨j, w⟩ := d
      simp only [Memory.risesFrom, Bool.and_eq_true, decide_eq_true_eq] at hm hn
      have hkj : k = j := by
        rcases Nat.lt_trichotomy k j with hlt | heq | hlt
        · have := h k
          rw [show Memory.read ((j, w) :: n) k = Memory.unlisted by
            simpa [Memory.read, show j ≠ k by omega] using Memory.read_below hn.2 (show k < j + 1 by omega)] at this
          exact absurd (by simpa [Memory.read] using this) (hmv (k, v) (by simp))
        · exact heq
        · have := h j
          rw [show Memory.read ((k, v) :: m) j = Memory.unlisted by
            simpa [Memory.read, show k ≠ j by omega] using Memory.read_below hm.2 (show j < k + 1 by omega)] at this
          exact absurd (by simpa [Memory.read] using this.symm) (hnv (j, w) (by simp))
      subst hkj
      have hvw : v = w := by simpa [Memory.read] using h k
      subst hvw
      refine congrArg _ (ih hm.2 hn.2 (fun c hc => hmv c (by simp [hc])) (fun c hc => hnv c (by simp [hc])) fun a => ?_)
      by_cases hak : k = a
      · subst hak
        rw [Memory.read_below hm.2 (by omega), Memory.read_below hn.2 (by omega)]
      · simpa [Memory.read, hak] using h a

/-- Canonical memories that read the same everywhere are the same list. -/
theorem Memory.eq_of_read_eq {m n : Memory} (hm : m.wf = true) (hn : n.wf = true) (h : ∀ a, m.read a = n.read a) : m = n := by
  simp only [Memory.wf, Bool.and_eq_true, List.all_eq_true, decide_eq_true_eq] at hm hn
  exact Memory.eq_of_read_eq_from hm.1 hn.1 (fun c hc => (hm.2 c hc).2) (fun c hc => (hn.2 c hc).2) h

end Sys2Proof.Machine
end

