-- ==== Sys2Proof/Laws/Ops.lean ====
section
/-! SUPPORT. One lemma per shared operation, saying everything it does to the fields and to a byte of memory. -/

namespace Sys2Proof.Machine

variable (s : State)

/-- R130. -/
theorem State.push_read (v : Byte) (a : Word) : (s.push v).read a = if a = stackAddr s.sp then v else s.read a := by
  simp [State.push, State.read_write]

@[simp] theorem State.push_pc (v : Byte) : (s.push v).pc = s.pc := rfl
@[simp] theorem State.push_sp (v : Byte) : (s.push v).sp = s.sp - 1#8 := rfl
@[simp] theorem State.push_a (v : Byte) : (s.push v).a = s.a := rfl
@[simp] theorem State.push_x (v : Byte) : (s.push v).x = s.x := rfl
@[simp] theorem State.push_y (v : Byte) : (s.push v).y = s.y := rfl
@[simp] theorem State.push_p (v : Byte) : (s.push v).p = s.p := rfl
@[simp] theorem State.push_clock (v : Byte) : (s.push v).clock = s.clock := rfl
@[simp] theorem State.push_unimpl (v : Byte) : (s.push v).unimpl = s.unimpl := rfl
theorem State.push_mem (v : Byte) : (s.push v).mem = s.mem.write (stackAddr s.sp).toNat v := rfl

theorem State.push_mem_wf (v : Byte) (h : s.mem.wf = true) : (s.push v).mem.wf = true := State.wf_write _ v h

/-- R131: a pull changes SP alone. -/
theorem State.afterPull_eq : s.afterPull = { s with sp := s.sp + 1#8 } := rfl

theorem State.pulled_eq : s.pulled = s.read (stackAddr (s.sp + 1#8)) := rfl

theorem sp_sub_two (p : Byte) : p - 1#8 - 1#8 = p - 2#8 := by bv_omega
theorem sp_sub_three (p : Byte) : p - 2#8 - 1#8 = p - 3#8 := by bv_omega
theorem sp_add_two (p : Byte) : p + 1#8 + 1#8 = p + 2#8 := by bv_omega
theorem sp_add_three (p : Byte) : p + 2#8 + 1#8 = p + 3#8 := by bv_omega

/-- R132: the two bytes a 16-bit push stores. -/
theorem State.push16_read (v : Word) (a : Word) :
    (s.push16 v).read a =
      if a = stackAddr (s.sp - 1#8) then lo v else if a = stackAddr s.sp then hi v else s.read a := by
  simp [State.push16, State.push_read]

@[simp] theorem State.push16_pc (v : Word) : (s.push16 v).pc = s.pc := rfl
@[simp] theorem State.push16_sp (v : Word) : (s.push16 v).sp = s.sp - 2#8 := by simp [State.push16, sp_sub_two]
@[simp] theorem State.push16_a (v : Word) : (s.push16 v).a = s.a := rfl
@[simp] theorem State.push16_x (v : Word) : (s.push16 v).x = s.x := rfl
@[simp] theorem State.push16_y (v : Word) : (s.push16 v).y = s.y := rfl
@[simp] theorem State.push16_p (v : Word) : (s.push16 v).p = s.p := rfl
@[simp] theorem State.push16_clock (v : Word) : (s.push16 v).clock = s.clock := rfl
@[simp] theorem State.push16_unimpl (v : Word) : (s.push16 v).unimpl = s.unimpl := rfl

theorem State.push16_mem_wf (v : Word) (h : s.mem.wf = true) : (s.push16 v).mem.wf = true :=
  State.push_mem_wf _ _ (State.push_mem_wf _ _ h)

/-- R133: the word two pulls return. -/
theorem State.pulled16_eq : s.pulled16 = word (s.read (stackAddr (s.sp + 2#8))) (s.read (stackAddr (s.sp + 1#8))) := by
  simp only [State.pulled16, State.pulled, State.afterPull, State.withSP_read, State.withSP_sp, sp_add_two]

/-- R133: two pulls change SP alone. -/
theorem State.afterPull16_eq : s.afterPull16 = { s with sp := s.sp + 2#8 } := by
  simp only [State.afterPull16, State.afterPull, State.withSP, sp_add_two]

/-- A 16-bit push does not reach an address above the stack page. -/
theorem State.push16_read_above (v : Word) {a : Word} (h : 0x1FF < a.toNat) : (s.push16 v).read a = s.read a := by
  simp [State.push16_read, ne_stackAddr h]

/-- R306: where BRK goes. -/
@[simp] theorem State.trapEntry_pc : s.trapEntry.pc = s.read16 Config.brkVector := by
  have h1 : 0x1FF < (Config.brkVector + 1#16).toNat := by decide
  have h2 : 0x1FF < Config.brkVector.toNat := by decide
  simp only [State.trapEntry, State.withFlag_pc, State.push_pc, State.withPC_pc, State.read16,
    State.push16_read_above _ _ h1, State.push16_read_above _ _ h2]

@[simp] theorem State.trapEntry_sp : s.trapEntry.sp = s.sp - 3#8 := by simp [State.trapEntry, sp_sub_three]
@[simp] theorem State.trapEntry_a : s.trapEntry.a = s.a := rfl
@[simp] theorem State.trapEntry_x : s.trapEntry.x = s.x := rfl
@[simp] theorem State.trapEntry_y : s.trapEntry.y = s.y := rfl
@[simp] theorem State.trapEntry_p : s.trapEntry.p = setFlag s.p .I true := rfl
@[simp] theorem State.trapEntry_clock : s.trapEntry.clock = s.clock := rfl
@[simp] theorem State.trapEntry_unimpl : s.trapEntry.unimpl = s.unimpl := rfl

/-- R306: the three bytes BRK stores. -/
theorem State.trapEntry_read (a : Word) :
    s.trapEntry.read a =
      if a = stackAddr (s.sp - 2#8) then statusPushed s.p else if a = stackAddr (s.sp - 1#8) then lo (s.pc - 1#16)
      else if a = stackAddr s.sp then hi (s.pc - 1#16) else s.read a := by
  simp [State.trapEntry, State.push_read, State.push16_read]

theorem State.trapEntry_mem_wf (h : s.mem.wf = true) : s.trapEntry.mem.wf = true :=
  State.push_mem_wf _ _ (State.push16_mem_wf _ _ h)

/-- R307: RTI changes P, SP and PC alone. -/
theorem State.trapReturn_eq :
    s.trapReturn =
      { s with
        p := statusPulled s.p (s.read (stackAddr (s.sp + 1#8)))
        sp := s.sp + 3#8
        pc := word (s.read (stackAddr (s.sp + 3#8))) (s.read (stackAddr (s.sp + 2#8))) } := by
  have h : s.sp + 1#8 + 2#8 = s.sp + 3#8 := by bv_omega
  have h' : s.sp + 1#8 + 1#8 = s.sp + 2#8 := by bv_omega
  simp only [State.trapReturn, State.afterPull16_eq, State.pulled16_eq, State.afterPull, State.pulled, State.withP_sp,
    State.withSP_sp, State.withP_read, State.withSP_read, h, h']
  rfl

/-- A step runs the fetched instruction and adds its cost to the clock (R110). -/
theorem step_of_exec {s t : State} (h : exec s.fetchInstr s.enter = .next t) : step s = .next (t.tick s.fetchCycles) := by
  simp [step, h, finish]

/-- A step that answers a next state ran the fetched instruction to one. -/
theorem exec_of_step {s t : State} (h : step s = .next t) :
    ∃ u, exec s.fetchInstr s.enter = .next u ∧ t = u.tick s.fetchCycles := by
  unfold step at h
  cases he : exec s.fetchInstr s.enter with
  | next u => exact ⟨u, rfl, by simpa [finish, he] using h.symm⟩
  | fault r => cases r
  | refused r => simp [finish, he] at h

end Sys2Proof.Machine
end

