-- ==== Sys2Proof/Laws/Exec.lean ====
section
/-! SUPPORT. One lemma per shape that several meanings share: the shift, the branch, the sum; and the fields the resolver and
the operand read depend on. -/

namespace Sys2Proof.Machine

variable (s : State)

/-- A write of the shifted value changes A or one byte of memory. -/
theorem writeShifted_eq (op : Operand) (r : Byte) :
    writeShifted op r s = if noMem op then s.withA r else s.write (resolve op s) r := rfl

@[simp] theorem writeShifted_pc (op : Operand) (r : Byte) : (writeShifted op r s).pc = s.pc := by
  unfold writeShifted; split <;> rfl
@[simp] theorem writeShifted_sp (op : Operand) (r : Byte) : (writeShifted op r s).sp = s.sp := by
  unfold writeShifted; split <;> rfl
@[simp] theorem writeShifted_x (op : Operand) (r : Byte) : (writeShifted op r s).x = s.x := by
  unfold writeShifted; split <;> rfl
@[simp] theorem writeShifted_y (op : Operand) (r : Byte) : (writeShifted op r s).y = s.y := by
  unfold writeShifted; split <;> rfl
@[simp] theorem writeShifted_clock (op : Operand) (r : Byte) : (writeShifted op r s).clock = s.clock := by
  unfold writeShifted; split <;> rfl
@[simp] theorem writeShifted_unimpl (op : Operand) (r : Byte) : (writeShifted op r s).unimpl = s.unimpl := by
  unfold writeShifted; split <;> rfl

@[simp] theorem shiftWith_pc (f : Byte → ShiftResult) (op : Operand) : (shiftWith f op s).pc = s.pc := by simp [shiftWith]
@[simp] theorem shiftWith_sp (f : Byte → ShiftResult) (op : Operand) : (shiftWith f op s).sp = s.sp := by simp [shiftWith]
@[simp] theorem shiftWith_x (f : Byte → ShiftResult) (op : Operand) : (shiftWith f op s).x = s.x := by simp [shiftWith]
@[simp] theorem shiftWith_y (f : Byte → ShiftResult) (op : Operand) : (shiftWith f op s).y = s.y := by simp [shiftWith]
@[simp] theorem shiftWith_clock (f : Byte → ShiftResult) (op : Operand) : (shiftWith f op s).clock = s.clock := by
  simp [shiftWith]
@[simp] theorem shiftWith_unimpl (f : Byte → ShiftResult) (op : Operand) : (shiftWith f op s).unimpl = s.unimpl := by
  simp [shiftWith]
@[simp] theorem shiftWith_p (f : Byte → ShiftResult) (op : Operand) :
    (shiftWith f op s).p = shiftStatus s.p (f (shiftOperand op s)) := rfl

/-- Where a shift puts its result. -/
theorem shiftWith_a (f : Byte → ShiftResult) (op : Operand) :
    (shiftWith f op s).a = if noMem op then (f s.a).value else s.a := by
  simp only [shiftWith, writeShifted, shiftOperand, State.withP_a]
  split <;> rfl

/-- The bytes a shift leaves. -/
theorem shiftWith_read (f : Byte → ShiftResult) (op : Operand) (a : Word) :
    (shiftWith f op s).read a =
      if noMem op = false ∧ a = resolve op s then (f (operandByte op s)).value else s.read a := by
  simp only [shiftWith, writeShifted, shiftOperand, State.withP_read]
  by_cases h : noMem op <;> simp [h, State.read_write]

theorem shiftWith_mem_wf (f : Byte → ShiftResult) (op : Operand) (h : s.mem.wf = true) : (shiftWith f op s).mem.wf = true := by
  simp only [shiftWith, writeShifted, State.withP_mem]
  split
  · exact h
  · exact State.wf_write _ _ h

/-- A branch changes PC alone. -/
theorem branchIf_eq (cond : Bool) (off : Byte) :
    branchIf cond off s = s.withPC (if cond then s.pc + sext16 off else s.pc) := by
  unfold branchIf
  split <;> rfl

/-- A sum or difference changes A and P alone. -/
theorem withAlu_eq (r : AluResult) : s.withAlu r = { s with a := r.value, p := aluStatus s.p r } := rfl

/-- The resolver does not depend on P. -/
@[simp] theorem resolve_withP (op : Operand) (p : Byte) : resolve op (s.withP p) = resolve op s := by cases op <;> rfl

/-- The operand byte does not depend on P. -/
@[simp] theorem operandByte_withP (op : Operand) (p : Byte) : operandByte op (s.withP p) = operandByte op s := by
  cases op <;> rfl

/-- What a shift reads does not depend on P. -/
@[simp] theorem shiftOperand_withP (op : Operand) (p : Byte) : shiftOperand op (s.withP p) = shiftOperand op s := by
  simp [shiftOperand]

end Sys2Proof.Machine
end

