-- ==== Sys2Proof/Laws/PerInstr.lean ====
section
/-! SUPPORT. The per-instruction family EncodedLength: an instruction's bytes are as many as its addressing mode says
(30_encoding.md R80, R88). -/

namespace Sys2Proof.Laws.EncodedLength

/-- The encoded instruction has the length of its mode, which is 1, 2 or 3. -/
def Statement (i : Instr) : Prop := (encode i).length = i.length ∧ 1 ≤ i.length ∧ i.length ≤ 3

/-- The operand's bytes are as many as its mode says. -/
theorem operand_bytes_length (op : Operand) : op.bytes.length = op.mode.operandBytes := by cases op <;> rfl

/-- The statement holds of any instruction, by the length of its operand. -/
theorem of_operand (i : Instr) : Statement i := by
  have h := operand_bytes_length i.operand
  refine ⟨?_, ?_, ?_⟩
  · simp only [encode, List.length_cons, h, Instr.length, Instr.mode, Mode.length]; omega
  · simp only [Instr.length, Mode.length]; omega
  · simp only [Instr.length, Mode.length]; cases i.mode <;> decide

variable (opc imm off : Byte) (addr : Word) (op : Operand) (eb : Bool)

theorem lda : Statement (.lda op) := of_operand _
theorem ldx : Statement (.ldx op) := of_operand _
theorem ldy : Statement (.ldy op) := of_operand _
theorem sta : Statement (.sta op) := of_operand _
theorem stx : Statement (.stx op) := of_operand _
theorem sty : Statement (.sty op) := of_operand _
theorem adc : Statement (.adc op) := of_operand _
theorem sbc : Statement (.sbc op eb) := of_operand _
theorem cmp : Statement (.cmp op) := of_operand _
theorem cpx : Statement (.cpx op) := of_operand _
theorem cpy : Statement (.cpy op) := of_operand _
theorem and : Statement (.and op) := of_operand _
theorem ora : Statement (.ora op) := of_operand _
theorem eor : Statement (.eor op) := of_operand _
theorem bit : Statement (.bit op) := of_operand _
theorem asl : Statement (.asl op) := of_operand _
theorem lsr : Statement (.lsr op) := of_operand _
theorem rol : Statement (.rol op) := of_operand _
theorem ror : Statement (.ror op) := of_operand _
theorem inc : Statement (.inc op) := of_operand _
theorem dec : Statement (.dec op) := of_operand _
theorem inx : Statement (.inx) := of_operand _
theorem dex : Statement (.dex) := of_operand _
theorem iny : Statement (.iny) := of_operand _
theorem dey : Statement (.dey) := of_operand _
theorem bcc : Statement (.bcc off) := of_operand _
theorem bcs : Statement (.bcs off) := of_operand _
theorem beq : Statement (.beq off) := of_operand _
theorem bne : Statement (.bne off) := of_operand _
theorem bmi : Statement (.bmi off) := of_operand _
theorem bpl : Statement (.bpl off) := of_operand _
theorem bvc : Statement (.bvc off) := of_operand _
theorem bvs : Statement (.bvs off) := of_operand _
theorem jmp : Statement (.jmp op) := of_operand _
theorem jsr : Statement (.jsr addr) := of_operand _
theorem rts : Statement (.rts) := of_operand _
theorem brk : Statement (.brk) := of_operand _
theorem rti : Statement (.rti) := of_operand _
theorem pha : Statement (.pha) := of_operand _
theorem pla : Statement (.pla) := of_operand _
theorem php : Statement (.php) := of_operand _
theorem plp : Statement (.plp) := of_operand _
theorem clc : Statement (.clc) := of_operand _
theorem sec : Statement (.sec) := of_operand _
theorem cld : Statement (.cld) := of_operand _
theorem sed : Statement (.sed) := of_operand _
theorem cli : Statement (.cli) := of_operand _
theorem sei : Statement (.sei) := of_operand _
theorem clv : Statement (.clv) := of_operand _
theorem tax : Statement (.tax) := of_operand _
theorem tay : Statement (.tay) := of_operand _
theorem tsx : Statement (.tsx) := of_operand _
theorem txa : Statement (.txa) := of_operand _
theorem txs : Statement (.txs) := of_operand _
theorem tya : Statement (.tya) := of_operand _
theorem nop : Statement (.nop opc) := of_operand _
theorem aac : Statement (.aac opc imm) := of_operand _
theorem aax : Statement (.aax op) := of_operand _
theorem arr : Statement (.arr imm) := of_operand _
theorem asr : Statement (.asr imm) := of_operand _
theorem atx : Statement (.atx imm) := of_operand _
theorem axa : Statement (.axa op) := of_operand _
theorem axs : Statement (.axs imm) := of_operand _
theorem dcp : Statement (.dcp op) := of_operand _
theorem dop : Statement (.dop opc op) := of_operand _
theorem isc : Statement (.isc op) := of_operand _
theorem kil : Statement (.kil opc) := of_operand _
theorem lar : Statement (.lar addr) := of_operand _
theorem lax : Statement (.lax op) := of_operand _
theorem rla : Statement (.rla op) := of_operand _
theorem rra : Statement (.rra op) := of_operand _
theorem slo : Statement (.slo op) := of_operand _
theorem sre : Statement (.sre op) := of_operand _
theorem sxa : Statement (.sxa addr) := of_operand _
theorem sya : Statement (.sya addr) := of_operand _
theorem top : Statement (.top opc op) := of_operand _
theorem xaa : Statement (.xaa imm) := of_operand _
theorem xas : Statement (.xas addr) := of_operand _

end Sys2Proof.Laws.EncodedLength
end

