-- ==== Sys2Proof/Tests/Slice0.lean ====
section
/-! SUPPORT. Tests with results taken from spec/95_test_vectors.md and the rules: ill-formed terms refused, decoding of words
written out in bits, steps, trace lines, the host side; and for each statement with hypotheses, a witness that meets them. -/

namespace Sys2Proof.Tests

open Sys2Proof Sys2Proof.Machine

/-- Memory with the listed bytes. -/
def load (l : List (Nat × Nat)) : Memory := l.foldl (fun m c => m.write c.1 (BitVec.ofNat 8 c.2)) []

/-- The step answers a next state that passes the check. -/
def stepGives (s : State) (check : State → Bool) : Bool :=
  match step s with
  | .next t => check t
  | .fault _ => false
  | .refused _ => false

/-- The reset state over the listed bytes. -/
def machine (l : List (Nat × Nat)) : State := create (load l)

/-! Well-formedness: an ill-formed term for each check -/

theorem test_illFormed_mode_documented :
    (([.lda .accumulator, .ldx (.zeroPageX 0), .ldy (.zeroPageY 0), .sta (.immediate 0), .stx (.zeroPageX 0),
      .sty (.absoluteX 0), .adc .implied, .sbc (.zeroPageY 0) false, .cmp (.relative 0), .cpx (.zeroPageX 0),
      .cpy (.absoluteX 0), .and (.indirect 0), .ora (.zeroPageY 0), .eor .accumulator, .bit (.immediate 0), .asl .implied,
      .lsr (.immediate 0), .rol (.absoluteY 0), .ror (.indexedIndirect 0), .inc .accumulator, .dec (.immediate 0),
      .jmp (.absoluteX 0)] : List Instr).all fun i => !i.modeLegal && !i.wellFormed) = true := by decide

theorem test_illFormed_mode_undocumented :
    (([.aax (.absoluteX 0), .axa (.absolute 0), .dcp (.immediate 0), .dop 0x04#8 (.absolute 0), .isc .implied,
      .lax (.zeroPageX 0), .rla .accumulator, .rra (.immediate 0), .slo (.zeroPageY 0), .sre (.indirect 0),
      .top 0x0C#8 (.zeroPage 0)] : List Instr).all fun i => !i.modeLegal && !i.wellFormed) = true := by decide

theorem test_illFormed_carried_byte :
    (([.nop 0xEB#8, .kil 0x00#8, .aac 0x0A#8 0, .dop 0x04#8 (.immediate 0), .top 0x0C#8 (.absoluteX 0),
      .sbc (.zeroPage 0) true] : List Instr).all fun i => i.modeLegal && !i.byteLegal && !i.wellFormed) = true := by decide

theorem test_wellFormed :
    (([.lda (.immediate 0), .nop 0x1A#8, .kil 0xF2#8, .aac 0x2B#8 0, .dop 0x80#8 (.immediate 0), .top 0xFC#8 (.absoluteX 0),
      .sbc (.immediate 0) true, .jmp (.indirect 0)] : List Instr).all Instr.wellFormed) = true := by decide

theorem test_decode_rejects_missing_bytes :
    decode [] = .error .truncated ∧ decode [0xA9#8] = .error .truncated ∧ decode [0x4C#8, 0x00#8] = .error .truncated := by
  decide

/-! Decoding: the opcode byte in bits (30_encoding.md R85), then the bytes 12 and 34 -/

theorem test_decode_adc :
    decodeBytes 0b01100001#8 0x12#8 0x34#8 = .adc (.indexedIndirect 0x12#8) ∧
    decodeBytes 0b01111101#8 0x12#8 0x34#8 = .adc (.absoluteX 0x3412#16) := by decide
theorem test_decode_and :
    decodeBytes 0b00100001#8 0x12#8 0x34#8 = .and (.indexedIndirect 0x12#8) ∧
    decodeBytes 0b00111101#8 0x12#8 0x34#8 = .and (.absoluteX 0x3412#16) := by decide
theorem test_decode_asl :
    decodeBytes 0b00000110#8 0x12#8 0x34#8 = .asl (.zeroPage 0x12#8) ∧
    decodeBytes 0b00011110#8 0x12#8 0x34#8 = .asl (.absoluteX 0x3412#16) := by decide
theorem test_decode_bcc :
    decodeBytes 0b10010000#8 0x12#8 0x34#8 = .bcc 0x12#8 := by decide
theorem test_decode_bcs :
    decodeBytes 0b10110000#8 0x12#8 0x34#8 = .bcs 0x12#8 := by decide
theorem test_decode_beq :
    decodeBytes 0b11110000#8 0x12#8 0x34#8 = .beq 0x12#8 := by decide
theorem test_decode_bit :
    decodeBytes 0b00100100#8 0x12#8 0x34#8 = .bit (.zeroPage 0x12#8) ∧
    decodeBytes 0b00101100#8 0x12#8 0x34#8 = .bit (.absolute 0x3412#16) := by decide
theorem test_decode_bmi :
    decodeBytes 0b00110000#8 0x12#8 0x34#8 = .bmi 0x12#8 := by decide
theorem test_decode_bne :
    decodeBytes 0b11010000#8 0x12#8 0x34#8 = .bne 0x12#8 := by decide
theorem test_decode_bpl :
    decodeBytes 0b00010000#8 0x12#8 0x34#8 = .bpl 0x12#8 := by decide
theorem test_decode_brk :
    decodeBytes 0b00000000#8 0x12#8 0x34#8 = .brk := by decide
theorem test_decode_bvc :
    decodeBytes 0b01010000#8 0x12#8 0x34#8 = .bvc 0x12#8 := by decide
theorem test_decode_bvs :
    decodeBytes 0b01110000#8 0x12#8 0x34#8 = .bvs 0x12#8 := by decide
theorem test_decode_clc :
    decodeBytes 0b00011000#8 0x12#8 0x34#8 = .clc := by decide
theorem test_decode_cld :
    decodeBytes 0b11011000#8 0x12#8 0x34#8 = .cld := by decide
theorem test_decode_cli :
    decodeBytes 0b01011000#8 0x12#8 0x34#8 = .cli := by decide
theorem test_decode_clv :
    decodeBytes 0b10111000#8 0x12#8 0x34#8 = .clv := by decide
theorem test_decode_cmp :
    decodeBytes 0b11000001#8 0x12#8 0x34#8 = .cmp (.indexedIndirect 0x12#8) ∧
    decodeBytes 0b11011101#8 0x12#8 0x34#8 = .cmp (.absoluteX 0x3412#16) := by decide
theorem test_decode_cpx :
    decodeBytes 0b11100000#8 0x12#8 0x34#8 = .cpx (.immediate 0x12#8) ∧
    decodeBytes 0b11101100#8 0x12#8 0x34#8 = .cpx (.absolute 0x3412#16) := by decide
theorem test_decode_cpy :
    decodeBytes 0b11000000#8 0x12#8 0x34#8 = .cpy (.immediate 0x12#8) ∧
    decodeBytes 0b11001100#8 0x12#8 0x34#8 = .cpy (.absolute 0x3412#16) := by decide
theorem test_decode_dec :
    decodeBytes 0b11000110#8 0x12#8 0x34#8 = .dec (.zeroPage 0x12#8) ∧
    decodeBytes 0b11011110#8 0x12#8 0x34#8 = .dec (.absoluteX 0x3412#16) := by decide
theorem test_decode_dex :
    decodeBytes 0b11001010#8 0x12#8 0x34#8 = .dex := by decide
theorem test_decode_dey :
    decodeBytes 0b10001000#8 0x12#8 0x34#8 = .dey := by decide
theorem test_decode_eor :
    decodeBytes 0b01000001#8 0x12#8 0x34#8 = .eor (.indexedIndirect 0x12#8) ∧
    decodeBytes 0b01011101#8 0x12#8 0x34#8 = .eor (.absoluteX 0x3412#16) := by decide
theorem test_decode_inc :
    decodeBytes 0b11100110#8 0x12#8 0x34#8 = .inc (.zeroPage 0x12#8) ∧
    decodeBytes 0b11111110#8 0x12#8 0x34#8 = .inc (.absoluteX 0x3412#16) := by decide
theorem test_decode_inx :
    decodeBytes 0b11101000#8 0x12#8 0x34#8 = .inx := by decide
theorem test_decode_iny :
    decodeBytes 0b11001000#8 0x12#8 0x34#8 = .iny := by decide
theorem test_decode_jmp :
    decodeBytes 0b01001100#8 0x12#8 0x34#8 = .jmp (.absolute 0x3412#16) ∧
    decodeBytes 0b01101100#8 0x12#8 0x34#8 = .jmp (.indirect 0x3412#16) := by decide
theorem test_decode_jsr :
    decodeBytes 0b00100000#8 0x12#8 0x34#8 = .jsr 0x3412#16 := by decide
theorem test_decode_lda :
    decodeBytes 0b10100001#8 0x12#8 0x34#8 = .lda (.indexedIndirect 0x12#8) ∧
    decodeBytes 0b10111101#8 0x12#8 0x34#8 = .lda (.absoluteX 0x3412#16) := by decide
theorem test_decode_ldx :
    decodeBytes 0b10100010#8 0x12#8 0x34#8 = .ldx (.immediate 0x12#8) ∧
    decodeBytes 0b10111110#8 0x12#8 0x34#8 = .ldx (.absoluteY 0x3412#16) := by decide
theorem test_decode_ldy :
    decodeBytes 0b10100000#8 0x12#8 0x34#8 = .ldy (.immediate 0x12#8) ∧
    decodeBytes 0b10111100#8 0x12#8 0x34#8 = .ldy (.absoluteX 0x3412#16) := by decide
theorem test_decode_lsr :
    decodeBytes 0b01000110#8 0x12#8 0x34#8 = .lsr (.zeroPage 0x12#8) ∧
    decodeBytes 0b01011110#8 0x12#8 0x34#8 = .lsr (.absoluteX 0x3412#16) := by decide
theorem test_decode_nop :
    decodeBytes 0b11101010#8 0x12#8 0x34#8 = .nop 0xEA#8 ∧
    decodeBytes 0b11111010#8 0x12#8 0x34#8 = .nop 0xFA#8 := by decide
theorem test_decode_ora :
    decodeBytes 0b00000001#8 0x12#8 0x34#8 = .ora (.indexedIndirect 0x12#8) ∧
    decodeBytes 0b00011101#8 0x12#8 0x34#8 = .ora (.absoluteX 0x3412#16) := by decide
theorem test_decode_pha :
    decodeBytes 0b01001000#8 0x12#8 0x34#8 = .pha := by decide
theorem test_decode_php :
    decodeBytes 0b00001000#8 0x12#8 0x34#8 = .php := by decide
theorem test_decode_pla :
    decodeBytes 0b01101000#8 0x12#8 0x34#8 = .pla := by decide
theorem test_decode_plp :
    decodeBytes 0b00101000#8 0x12#8 0x34#8 = .plp := by decide
theorem test_decode_rol :
    decodeBytes 0b00100110#8 0x12#8 0x34#8 = .rol (.zeroPage 0x12#8) ∧
    decodeBytes 0b00111110#8 0x12#8 0x34#8 = .rol (.absoluteX 0x3412#16) := by decide
theorem test_decode_ror :
    decodeBytes 0b01100110#8 0x12#8 0x34#8 = .ror (.zeroPage 0x12#8) ∧
    decodeBytes 0b01111110#8 0x12#8 0x34#8 = .ror (.absoluteX 0x3412#16) := by decide
theorem test_decode_rti :
    decodeBytes 0b01000000#8 0x12#8 0x34#8 = .rti := by decide
theorem test_decode_rts :
    decodeBytes 0b01100000#8 0x12#8 0x34#8 = .rts := by decide
theorem test_decode_sbc :
    decodeBytes 0b11101001#8 0x12#8 0x34#8 = .sbc (.immediate 0x12#8) false ∧
    decodeBytes 0b11101011#8 0x12#8 0x34#8 = .sbc (.immediate 0x12#8) true := by decide
theorem test_decode_sec :
    decodeBytes 0b00111000#8 0x12#8 0x34#8 = .sec := by decide
theorem test_decode_sed :
    decodeBytes 0b11111000#8 0x12#8 0x34#8 = .sed := by decide
theorem test_decode_sei :
    decodeBytes 0b01111000#8 0x12#8 0x34#8 = .sei := by decide
theorem test_decode_sta :
    decodeBytes 0b10000001#8 0x12#8 0x34#8 = .sta (.indexedIndirect 0x12#8) ∧
    decodeBytes 0b10011101#8 0x12#8 0x34#8 = .sta (.absoluteX 0x3412#16) := by decide
theorem test_decode_stx :
    decodeBytes 0b10000110#8 0x12#8 0x34#8 = .stx (.zeroPage 0x12#8) ∧
    decodeBytes 0b10010110#8 0x12#8 0x34#8 = .stx (.zeroPageY 0x12#8) := by decide
theorem test_decode_sty :
    decodeBytes 0b10000100#8 0x12#8 0x34#8 = .sty (.zeroPage 0x12#8) ∧
    decodeBytes 0b10010100#8 0x12#8 0x34#8 = .sty (.zeroPageX 0x12#8) := by decide
theorem test_decode_tax :
    decodeBytes 0b10101010#8 0x12#8 0x34#8 = .tax := by decide
theorem test_decode_tay :
    decodeBytes 0b10101000#8 0x12#8 0x34#8 = .tay := by decide
theorem test_decode_tsx :
    decodeBytes 0b10111010#8 0x12#8 0x34#8 = .tsx := by decide
theorem test_decode_txa :
    decodeBytes 0b10001010#8 0x12#8 0x34#8 = .txa := by decide
theorem test_decode_txs :
    decodeBytes 0b10011010#8 0x12#8 0x34#8 = .txs := by decide
theorem test_decode_tya :
    decodeBytes 0b10011000#8 0x12#8 0x34#8 = .tya := by decide
theorem test_decode_aac :
    decodeBytes 0b00001011#8 0x12#8 0x34#8 = .aac 0x0B#8 0x12#8 ∧
    decodeBytes 0b00101011#8 0x12#8 0x34#8 = .aac 0x2B#8 0x12#8 := by decide
theorem test_decode_aax :
    decodeBytes 0b10000011#8 0x12#8 0x34#8 = .aax (.indexedIndirect 0x12#8) ∧
    decodeBytes 0b10010111#8 0x12#8 0x34#8 = .aax (.zeroPageY 0x12#8) := by decide
theorem test_decode_arr :
    decodeBytes 0b01101011#8 0x12#8 0x34#8 = .arr 0x12#8 := by decide
theorem test_decode_asr :
    decodeBytes 0b01001011#8 0x12#8 0x34#8 = .asr 0x12#8 := by decide
theorem test_decode_atx :
    decodeBytes 0b10101011#8 0x12#8 0x34#8 = .atx 0x12#8 := by decide
theorem test_decode_axa :
    decodeBytes 0b10010011#8 0x12#8 0x34#8 = .axa (.indirectIndexed 0x12#8) ∧
    decodeBytes 0b10011111#8 0x12#8 0x34#8 = .axa (.absoluteY 0x3412#16) := by decide
theorem test_decode_axs :
    decodeBytes 0b11001011#8 0x12#8 0x34#8 = .axs 0x12#8 := by decide
theorem test_decode_dcp :
    decodeBytes 0b11000011#8 0x12#8 0x34#8 = .dcp (.indexedIndirect 0x12#8) ∧
    decodeBytes 0b11011111#8 0x12#8 0x34#8 = .dcp (.absoluteX 0x3412#16) := by decide
theorem test_decode_dop :
    decodeBytes 0b00000100#8 0x12#8 0x34#8 = .dop 0x04#8 (.zeroPage 0x12#8) ∧
    decodeBytes 0b11110100#8 0x12#8 0x34#8 = .dop 0xF4#8 (.zeroPageX 0x12#8) := by decide
theorem test_decode_isc :
    decodeBytes 0b11100011#8 0x12#8 0x34#8 = .isc (.indexedIndirect 0x12#8) ∧
    decodeBytes 0b11111111#8 0x12#8 0x34#8 = .isc (.absoluteX 0x3412#16) := by decide
theorem test_decode_kil :
    decodeBytes 0b00000010#8 0x12#8 0x34#8 = .kil 0x02#8 ∧
    decodeBytes 0b11110010#8 0x12#8 0x34#8 = .kil 0xF2#8 := by decide
theorem test_decode_lar :
    decodeBytes 0b10111011#8 0x12#8 0x34#8 = .lar 0x3412#16 := by decide
theorem test_decode_lax :
    decodeBytes 0b10100011#8 0x12#8 0x34#8 = .lax (.indexedIndirect 0x12#8) ∧
    decodeBytes 0b10111111#8 0x12#8 0x34#8 = .lax (.absoluteY 0x3412#16) := by decide
theorem test_decode_rla :
    decodeBytes 0b00100011#8 0x12#8 0x34#8 = .rla (.indexedIndirect 0x12#8) ∧
    decodeBytes 0b00111111#8 0x12#8 0x34#8 = .rla (.absoluteX 0x3412#16) := by decide
theorem test_decode_rra :
    decodeBytes 0b01100011#8 0x12#8 0x34#8 = .rra (.indexedIndirect 0x12#8) ∧
    decodeBytes 0b01111111#8 0x12#8 0x34#8 = .rra (.absoluteX 0x3412#16) := by decide
theorem test_decode_slo :
    decodeBytes 0b00000011#8 0x12#8 0x34#8 = .slo (.indexedIndirect 0x12#8) ∧
    decodeBytes 0b00011111#8 0x12#8 0x34#8 = .slo (.absoluteX 0x3412#16) := by decide
theorem test_decode_sre :
    decodeBytes 0b01000011#8 0x12#8 0x34#8 = .sre (.indexedIndirect 0x12#8) ∧
    decodeBytes 0b01011111#8 0x12#8 0x34#8 = .sre (.absoluteX 0x3412#16) := by decide
theorem test_decode_sxa :
    decodeBytes 0b10011110#8 0x12#8 0x34#8 = .sxa 0x3412#16 := by decide
theorem test_decode_sya :
    decodeBytes 0b10011100#8 0x12#8 0x34#8 = .sya 0x3412#16 := by decide
theorem test_decode_top :
    decodeBytes 0b00001100#8 0x12#8 0x34#8 = .top 0x0C#8 (.absolute 0x3412#16) ∧
    decodeBytes 0b11111100#8 0x12#8 0x34#8 = .top 0xFC#8 (.absoluteX 0x3412#16) := by decide
theorem test_decode_xaa :
    decodeBytes 0b10001011#8 0x12#8 0x34#8 = .xaa 0x12#8 := by decide
theorem test_decode_xas :
    decodeBytes 0b10011011#8 0x12#8 0x34#8 = .xas 0x3412#16 := by decide

/-! Fetch and addressing (95_test_vectors.md 2.2) -/

/-- V-AM13: the operand byte is fetched at 0000. -/
theorem test_fetch_am13 :
    (let s := { machine [(0xFFFF, 0xA9), (0x0000, 0x12)] with pc := 0xFFFF#16 }
     s.fetchInstr == .lda (.immediate 0x12#8) && s.enter.pc == 0x0001#16) = true := by decide

/-- V-AM3, V-AM4, V-AM5, V-AM6. -/
theorem test_resolve_indexed :
    resolve (.zeroPageX 0xFF#8) { State.reset with x := 0x01#8 } = 0x0000#16 ∧
    resolve (.zeroPageY 0x80#8) { State.reset with y := 0x90#8 } = 0x0010#16 ∧
    resolve (.absoluteX 0xFFFF#16) { State.reset with x := 0x02#8 } = 0x0001#16 ∧
    resolve (.absoluteY 0x02F0#16) { State.reset with y := 0x20#8 } = 0x0310#16 := by decide

/-- V-AM7, V-AM8, V-AM9. -/
theorem test_resolve_indirect_forms :
    resolve (.indexedIndirect 0xFF#8) (machine [(0x00FF, 0x00), (0x0000, 0x04)]) = 0x0400#16 ∧
    resolve (.indexedIndirect 0x80#8) { machine [(0x0005, 0x00), (0x0006, 0x02)] with x := 0x85#8 } = 0x0200#16 ∧
    resolve (.indirectIndexed 0xFF#8) { machine [(0x00FF, 0xF8), (0x0000, 0xFF)] with y := 0x10#8 } = 0x0008#16 := by decide

/-- V-AM10, V-AM11: both settings of the OPEN parameter. -/
theorem test_jmp_indirect_am10_am11 :
    (let s := machine [(0x02FF, 0x00), (0x0300, 0x04), (0x0200, 0x80)]
     indirectTarget false 0x02FF#16 s == 0x0400#16 && indirectTarget true 0x02FF#16 s == 0x8000#16) = true := by decide

/-- W5: a 16-bit push at SP = 00. -/
theorem test_push16_w5 :
    (let s := ({ State.reset with sp := 0x00#8 }).push16 0x1234#16
     s.read 0x0100#16 == 0x12#8 && s.read 0x01FF#16 == 0x34#8 && s.sp == 0xFE#8 && s.pulled16 == 0x1234#16) = true := by
  decide

/-- 20_memory.md R59: BRK's accesses in order; the status is stored after the vector is read. -/
theorem test_accesses_brk :
    executeAccesses .brk { State.reset with pc := 0xC007#16 } =
      [.write 0x01FD#16 0xC0#8, .write 0x01FC#16 0x06#8, .read 0xFFFE#16, .read 0xFFFF#16, .write 0x01FB#16 0x34#8] := by decide

/-- 20_memory.md R58: the operand byte of an Immediate form is read once, of AND (29) and of AAC (0B). -/
theorem test_accesses_immediate :
    stepAccesses (machine [(0xC000, 0x29), (0xC001, 0x0F)]) = [.read 0xC000#16, .read 0xC001#16] ∧
    stepAccesses (machine [(0xC000, 0x0B), (0xC001, 0x0F)]) = [.read 0xC000#16, .read 0xC001#16] := by decide

/-- 60_exceptions.md R323: the bytes of the instruction, then the pointer and the operand; JMP Absolute reads no operand. -/
theorem test_accesses_trace :
    traceAccesses
        { machine [(0x0081, 0x00), (0x0082, 0x02), (0x0200, 0x5A), (0xC000, 0xA1), (0xC001, 0x80)] with x := 0x01#8 } =
      [.read 0xC000#16, .read 0xC001#16, .read 0x0081#16, .read 0x0082#16, .read 0x0200#16] ∧
    traceAccesses (machine [(0xC000, 0x4C), (0xC001, 0xF5), (0xC002, 0xC5)]) =
      [.read 0xC000#16, .read 0xC001#16, .read 0xC002#16] ∧
    traceAccesses (machine [(0xC000, 0x18)]) = [.read 0xC000#16] := by decide

/-- A store removes a cell or keeps the list in order. -/
theorem test_memory_canonical :
    Memory.write [(1, 0x11#8), (3, 0x33#8)] 2 0x22#8 = [(1, 0x11#8), (2, 0x22#8), (3, 0x33#8)] ∧
    Memory.write [(1, 0x11#8), (3, 0x33#8)] 3 0x00#8 = [(1, 0x11#8)] := by decide

/-- The word is fetched and run by the next step; the bits above `nbits` are 0. -/
theorem test_withFetchWord :
    (State.reset.withFetchWord 16 0x42A9).fetchInstr = .lda (.immediate 0x42#8) ∧
    (State.reset.withFetchWord 8 0xFFFF4C).fetchInstr = .jmp (.absolute 0x0000#16) := by decide

/-! Trace lines (95_test_vectors.md 2.10) -/

theorem test_trace_sta_zeroPage :
    traceText { machine [(0x0010, 0x77), (0xC000, 0x85), (0xC001, 0x10)] with a := 0x01#8 } =
      "C000  85 10     STA $10 = 77                    A:01 X:00 Y:00 P:34 SP:FD CYC:  0".toList := by decide

theorem test_trace_jmp_absolute :
    traceText (machine [(0xC000, 0x4C), (0xC001, 0xF5), (0xC002, 0xC5)]) =
      "C000  4C F5 C5  JMP $C5F5                       A:00 X:00 Y:00 P:34 SP:FD CYC:  0".toList := by decide

theorem test_trace_lda_absoluteX :
    traceText { machine [(0x0301, 0xAB), (0xC000, 0xBD), (0xC001, 0xFF), (0xC002, 0x02)] with x := 0x02#8 } =
      "C000  BD FF 02  LDA $02FF,X @ 0301 = AB         A:00 X:02 Y:00 P:34 SP:FD CYC:  0".toList := by decide

theorem test_trace_lda_indexedIndirect :
    traceText
        { machine [(0x0081, 0x00), (0x0082, 0x02), (0x0200, 0x5A), (0xC000, 0xA1), (0xC001, 0x80)] with x := 0x01#8 } =
      "C000  A1 80     LDA ($80,X) @ 81 = 0200 = 5A    A:00 X:01 Y:00 P:34 SP:FD CYC:  0".toList := by decide

theorem test_trace_lda_indirectIndexed :
    traceText (machine [(0x0089, 0x00), (0x008A, 0x03), (0x0300, 0x89), (0xC000, 0xB1), (0xC001, 0x89)]) =
      "C000  B1 89     LDA ($89),Y = 0300 @ 0300 = 89  A:00 X:00 Y:00 P:34 SP:FD CYC:  0".toList := by decide

theorem test_trace_lax_starred :
    traceText (machine [(0x0010, 0x55), (0xC000, 0xA7), (0xC001, 0x10)]) =
      "C000  A7 10    *LAX $10 = 55                    A:00 X:00 Y:00 P:34 SP:FD CYC:  0".toList := by decide

theorem test_trace_dot_position :
    traceText { machine [(0xC000, 0xEA)] with clock := 113 } =
      "C000  EA        NOP                             A:00 X:00 Y:00 P:34 SP:FD CYC:339".toList := by decide

/-! Reset, harness, debug commands (95_test_vectors.md 2.11) -/

/-- V-RS1. -/
theorem test_reset_rs1 :
    resetCpu
        { machine [(0x0200, 0x5A)] with
          pc := 0x1234#16, a := 0x55#8, p := 0xFF#8, sp := 0x10#8, clock := 999, unimpl := some (.lax, 0xA7#8) } =
      machine [(0x0200, 0x5A)] := by decide

/-- V-RS3: the first step fetches from C000. -/
theorem test_reset_rs3 :
    stepGives (machine [(0xC000, 0xE8), (0xFFFC, 0x00), (0xFFFD, 0x80)]) (fun t => t.pc == 0xC001#16 && t.x == 0x01#8) = true := by
  decide

/-- Host parameters of the tests: the compare width takes PC's four digits; the program is all NOP. -/
def testParams (log : List Text) : HarnessParams :=
  { traceCompareWidth := 4, referenceLogPath := ['l'], files := [(['l'], log)], memInit := load [(0xC000, 0xEA), (0xC001, 0xEA)] }

/-- V-HN1. -/
theorem test_harness_hn1 :
    (let ss : Session := ⟨{ State.reset with a := 0x55#8 }, .idle, false⟩
     harnessTest { testParams [] with files := [] } 1 ss == (ss, .missingLog)) = true := by decide

/-- V-HN2: line 2 is recorded, its instruction runs, line 3 is not read. -/
theorem test_harness_hn2 :
    (let r := harnessLoop 4 ["C000\n".toList, "9999\r\n".toList, "8888\n".toList] 1 0 (machine [(0xC000, 0xEA), (0xC001, 0xEA)]) []
     r.1.pc == 0xC002#16 && r.2.map (fun m => (m.line, m.ref)) == [(2, "9999".toList)]) = true := by decide

/-- R335, R336: the harness ends in Done at power-on state. -/
theorem test_harness_done :
    (let r := harnessTest (testParams ["C000\n".toList]) 1 ⟨State.reset, .idle, false⟩
     r.1.phase == .done && r.1.cpu == create (testParams []).memInit && r.2.success) = true := by decide

/-- V-HN1: a session starts Idle and stays so when the log is missing. -/
theorem test_session_starts_idle :
    (harnessTest { testParams [] with files := [] } 1 (Session.start [])).1.phase = .idle := by decide

/-- V-DB1, V-DB2, V-DB4, V-DB5. -/
theorem test_debug_commands :
    parseCommand "goto 8000".toList = .goto 0x8000#16 ∧ parseCommand "goto xyz".toList = .gotoBad ∧
    parseCommand "next abc".toList = .next 1 ∧ parseCommand "next 12".toList = .next 12 ∧
    parseCommand "frobnicate".toList = .unknown ∧ parseCommand "rs".toList = .reset := by decide

/-- R356 (c): the run ends with the step of an undocumented opcode. -/
theorem test_run_ends_at_unimplemented :
    (let r := runUntil (some 0xC009#16) 5 (machine [(0xC000, 0x02)])
     r.2 == .unimplemented && r.1.pc == 0xC001#16 && r.1.unimpl == some (.kil, 0x02#8)) = true := by decide

/-! Steps (95_test_vectors.md 2.2 to 2.9) -/

/-- 95_test_vectors.md V-AR3. -/
theorem test_adc_ar3 :
    stepGives { State.reset with mem := load [(0xC000, 0x69), (0xC001, 0x01)], a := 0xFF#8, p := 0x34#8 } (fun t =>
      t.a == 0x00#8 && t.p == 0x37#8 && t.pc == 0xC002#16 && t.clock == 2 && t.unimpl == none) = true := by decide
/-- 95_test_vectors.md V-AR6. -/
theorem test_adc_ar6 :
    stepGives { State.reset with mem := load [(0xC000, 0x69), (0xC001, 0x00)], a := 0x7F#8, p := 0x35#8 } (fun t =>
      t.a == 0x80#8 && t.p == 0xF4#8 && t.pc == 0xC002#16 && t.clock == 2 && t.unimpl == none) = true := by decide
/-- 95_test_vectors.md V-LG1. -/
theorem test_and_lg1 :
    stepGives { State.reset with mem := load [(0xC000, 0x29), (0xC001, 0x0F)], a := 0xF0#8, p := 0x34#8 } (fun t =>
      t.a == 0x00#8 && t.p == 0x36#8 && t.pc == 0xC002#16 && t.clock == 2 && t.unimpl == none) = true := by decide
/-- 95_test_vectors.md V-LG2. -/
theorem test_and_lg2 :
    stepGives { State.reset with mem := load [(0xC000, 0x29), (0xC001, 0xFF)], a := 0x80#8, p := 0x35#8 } (fun t =>
      t.a == 0x80#8 && t.p == 0xB5#8 && t.pc == 0xC002#16 && t.clock == 2 && t.unimpl == none) = true := by decide
/-- 95_test_vectors.md V-SH1. -/
theorem test_asl_sh1 :
    stepGives { State.reset with mem := load [(0xC000, 0x0A)], a := 0x80#8, p := 0x34#8 } (fun t =>
      t.a == 0x00#8 && t.p == 0x37#8 && t.pc == 0xC001#16 && t.clock == 2 && t.unimpl == none) = true := by decide
/-- 95_test_vectors.md V-SH2. -/
theorem test_asl_sh2 :
    stepGives { State.reset with mem := load [(0x0010, 0x40), (0xC000, 0x06), (0xC001, 0x10)], a := 0x11#8, p := 0x34#8 } (fun t =>
      t.a == 0x11#8 && t.p == 0xB4#8 && t.pc == 0xC002#16 && t.clock == 5 && t.read 0x0010#16 == 0x80#8 && t.unimpl == none) = true := by decide
/-- 95_test_vectors.md V-CT1. -/
theorem test_bcc_ct1 :
    stepGives { State.reset with mem := load [(0xC000, 0x90), (0xC001, 0x10)], p := 0x35#8 } (fun t =>
      t.a == 0x00#8 && t.p == 0x35#8 && t.pc == 0xC002#16 && t.clock == 2 && t.unimpl == none) = true := by decide
/-- 95_test_vectors.md V-CT2. -/
theorem test_bcc_ct2 :
    stepGives { State.reset with mem := load [(0xC000, 0x90), (0xC001, 0xFE)], p := 0x34#8 } (fun t =>
      t.a == 0x00#8 && t.p == 0x34#8 && t.pc == 0xC000#16 && t.clock == 2 && t.unimpl == none) = true := by decide
/-- 95_test_vectors.md V-CT3. -/
theorem test_bcs_ct3 :
    stepGives { State.reset with mem := load [(0xC000, 0xB0), (0xC001, 0x04)], p := 0x35#8 } (fun t =>
      t.a == 0x00#8 && t.p == 0x35#8 && t.pc == 0xC006#16 && t.clock == 2 && t.unimpl == none) = true := by decide
/-- 95_test_vectors.md V-CT4. -/
theorem test_beq_ct4 :
    stepGives { State.reset with mem := load [(0xC000, 0xF0), (0xC001, 0x04)], p := 0x34#8 } (fun t =>
      t.a == 0x00#8 && t.p == 0x34#8 && t.pc == 0xC002#16 && t.clock == 2 && t.unimpl == none) = true := by decide
/-- 95_test_vectors.md V-LG7. -/
theorem test_bit_lg7 :
    stepGives { State.reset with mem := load [(0x0010, 0xC0), (0xC000, 0x24), (0xC001, 0x10)], a := 0x3F#8, p := 0x34#8 } (fun t =>
      t.a == 0x3F#8 && t.p == 0xF6#8 && t.pc == 0xC002#16 && t.clock == 3 && t.unimpl == none) = true := by decide
/-- 95_test_vectors.md V-LG8. -/
theorem test_bit_lg8 :
    stepGives { State.reset with mem := load [(0x0200, 0x01), (0xC000, 0x2C), (0xC001, 0x00), (0xC002, 0x02)], a := 0xFF#8, p := 0xF4#8 } (fun t =>
      t.a == 0xFF#8 && t.p == 0x34#8 && t.pc == 0xC003#16 && t.clock == 4 && t.unimpl == none) = true := by decide
/-- 95_test_vectors.md V-CT6. -/
theorem test_bmi_ct6 :
    stepGives { State.reset with mem := load [(0xC000, 0x30), (0xC001, 0x04)], p := 0xB4#8 } (fun t =>
      t.a == 0x00#8 && t.p == 0xB4#8 && t.pc == 0xC006#16 && t.clock == 2 && t.unimpl == none) = true := by decide
/-- 95_test_vectors.md V-AM12. -/
theorem test_bne_am12 :
    stepGives { State.reset with mem := load [(0xC000, 0xD0), (0xC001, 0x80)], p := 0x34#8 } (fun t =>
      t.a == 0x00#8 && t.p == 0x34#8 && t.pc == 0xBF82#16 && t.clock == 2 && t.unimpl == none) = true := by decide
/-- 95_test_vectors.md V-CT5. -/
theorem test_bne_ct5 :
    stepGives { State.reset with mem := load [(0xC000, 0xD0), (0xC001, 0x04)], p := 0x34#8 } (fun t =>
      t.a == 0x00#8 && t.p == 0x34#8 && t.pc == 0xC006#16 && t.clock == 2 && t.unimpl == none) = true := by decide
/-- 95_test_vectors.md V-AM15. -/
theorem test_bpl_am15 :
    stepGives { State.reset with mem := load [(0xFFF0, 0x10), (0xFFF1, 0x7F)], pc := 0xFFF0#16, p := 0x34#8 } (fun t =>
      t.a == 0x00#8 && t.p == 0x34#8 && t.pc == 0x0071#16 && t.clock == 2 && t.unimpl == none) = true := by decide
/-- 95_test_vectors.md V-CT7. -/
theorem test_bpl_ct7 :
    stepGives { State.reset with mem := load [(0xC000, 0x10), (0xC001, 0x04)], p := 0xB4#8 } (fun t =>
      t.a == 0x00#8 && t.p == 0xB4#8 && t.pc == 0xC002#16 && t.clock == 2 && t.unimpl == none) = true := by decide
/-- 95_test_vectors.md V-CT15. -/
theorem test_brk_ct15 :
    stepGives { State.reset with mem := load [(0xFFFE, 0x00), (0xFFFF, 0xD0), (0xC006, 0x00)], pc := 0xC006#16, p := 0x30#8 } (fun t =>
      t.a == 0x00#8 && t.sp == 0xFA#8 && t.p == 0x34#8 && t.pc == 0xD000#16 && t.clock == 7 && t.read 0x01FD#16 == 0xC0#8 && t.read 0x01FC#16 == 0x06#8 && t.read 0x01FB#16 == 0x30#8 && t.unimpl == none) = true := by decide
/-- 95_test_vectors.md V-CT8. -/
theorem test_bvc_ct8 :
    stepGives { State.reset with mem := load [(0xC000, 0x50), (0xC001, 0x04)], p := 0x74#8 } (fun t =>
      t.a == 0x00#8 && t.p == 0x74#8 && t.pc == 0xC002#16 && t.clock == 2 && t.unimpl == none) = true := by decide
/-- 95_test_vectors.md V-CT9. -/
theorem test_bvs_ct9 :
    stepGives { State.reset with mem := load [(0xC000, 0x70), (0xC001, 0x04)], p := 0x74#8 } (fun t =>
      t.a == 0x00#8 && t.p == 0x74#8 && t.pc == 0xC006#16 && t.clock == 2 && t.unimpl == none) = true := by decide
/-- 95_test_vectors.md V-ST6. -/
theorem test_clc_st6 :
    stepGives { State.reset with mem := load [(0xC000, 0x18)], p := 0xFF#8 } (fun t =>
      t.a == 0x00#8 && t.p == 0xFE#8 && t.pc == 0xC001#16 && t.clock == 2 && t.unimpl == none) = true := by decide
/-- 95_test_vectors.md V-ST8. -/
theorem test_cld_st8 :
    stepGives { State.reset with mem := load [(0xC000, 0xD8)], p := 0xFF#8 } (fun t =>
      t.a == 0x00#8 && t.p == 0xF7#8 && t.pc == 0xC001#16 && t.clock == 2 && t.unimpl == none) = true := by decide
/-- 95_test_vectors.md V-ST10. -/
theorem test_cli_st10 :
    stepGives { State.reset with mem := load [(0xC000, 0x58)], p := 0xFF#8 } (fun t =>
      t.a == 0x00#8 && t.p == 0xFB#8 && t.pc == 0xC001#16 && t.clock == 2 && t.unimpl == none) = true := by decide
/-- 95_test_vectors.md V-ST12. -/
theorem test_clv_st12 :
    stepGives { State.reset with mem := load [(0xC000, 0xB8)], p := 0xFF#8 } (fun t =>
      t.a == 0x00#8 && t.p == 0xBF#8 && t.pc == 0xC001#16 && t.clock == 2 && t.unimpl == none) = true := by decide
/-- 95_test_vectors.md V-AR15. -/
theorem test_cmp_ar15 :
    stepGives { State.reset with mem := load [(0xC000, 0xC9), (0xC001, 0x41)], a := 0x40#8, p := 0x35#8 } (fun t =>
      t.a == 0x40#8 && t.p == 0xB4#8 && t.pc == 0xC002#16 && t.clock == 2 && t.unimpl == none) = true := by decide
/-- 95_test_vectors.md V-AR17. -/
theorem test_cmp_ar17 :
    stepGives { State.reset with mem := load [(0xC000, 0xC9), (0xC001, 0xFF)], a := 0x00#8, p := 0x34#8 } (fun t =>
      t.a == 0x00#8 && t.p == 0x34#8 && t.pc == 0xC002#16 && t.clock == 2 && t.unimpl == none) = true := by decide
/-- 95_test_vectors.md V-AR18. -/
theorem test_cpx_ar18 :
    stepGives { State.reset with mem := load [(0xC000, 0xE0), (0xC001, 0x00)], x := 0x00#8, p := 0x34#8 } (fun t =>
      t.a == 0x00#8 && t.p == 0x37#8 && t.pc == 0xC002#16 && t.clock == 2 && t.unimpl == none) = true := by decide
/-- 95_test_vectors.md V-AR19. -/
theorem test_cpy_ar19 :
    stepGives { State.reset with mem := load [(0xC000, 0xC0), (0xC001, 0x80)], y := 0x7F#8, p := 0x34#8 } (fun t =>
      t.a == 0x00#8 && t.p == 0xB4#8 && t.pc == 0xC002#16 && t.clock == 2 && t.unimpl == none) = true := by decide
/-- 95_test_vectors.md V-SH11. -/
theorem test_dec_sh11 :
    stepGives { State.reset with mem := load [(0x0010, 0x00), (0xC000, 0xC6), (0xC001, 0x10)], p := 0x34#8 } (fun t =>
      t.a == 0x00#8 && t.p == 0xB4#8 && t.pc == 0xC002#16 && t.clock == 5 && t.read 0x0010#16 == 0xFF#8 && t.unimpl == none) = true := by decide
/-- 95_test_vectors.md V-SH12. -/
theorem test_dec_sh12 :
    stepGives { State.reset with mem := load [(0x0201, 0x01), (0xC000, 0xDE), (0xC001, 0x00), (0xC002, 0x02)], x := 0x01#8, p := 0x34#8 } (fun t =>
      t.a == 0x00#8 && t.p == 0x36#8 && t.pc == 0xC003#16 && t.clock == 7 && t.read 0x0201#16 == 0x00#8 && t.unimpl == none) = true := by decide
/-- 95_test_vectors.md V-SH14. -/
theorem test_dex_sh14 :
    stepGives { State.reset with mem := load [(0xC000, 0xCA)], x := 0x00#8, p := 0x34#8 } (fun t =>
      t.a == 0x00#8 && t.x == 0xFF#8 && t.p == 0xB4#8 && t.pc == 0xC001#16 && t.clock == 2 && t.unimpl == none) = true := by decide
/-- 95_test_vectors.md V-SH16. -/
theorem test_dey_sh16 :
    stepGives { State.reset with mem := load [(0xC000, 0x88)], y := 0x01#8, p := 0x34#8 } (fun t =>
      t.a == 0x00#8 && t.y == 0x00#8 && t.p == 0x36#8 && t.pc == 0xC001#16 && t.clock == 2 && t.unimpl == none) = true := by decide
/-- 95_test_vectors.md V-LG5. -/
theorem test_eor_lg5 :
    stepGives { State.reset with mem := load [(0xC000, 0x49), (0xC001, 0x5A)], a := 0x5A#8, p := 0x34#8 } (fun t =>
      t.a == 0x00#8 && t.p == 0x36#8 && t.pc == 0xC002#16 && t.clock == 2 && t.unimpl == none) = true := by decide
/-- 95_test_vectors.md V-LG6. -/
theorem test_eor_lg6 :
    stepGives { State.reset with mem := load [(0xC000, 0x49), (0xC001, 0xFF)], a := 0x0F#8, p := 0x34#8 } (fun t =>
      t.a == 0xF0#8 && t.p == 0xB4#8 && t.pc == 0xC002#16 && t.clock == 2 && t.unimpl == none) = true := by decide
/-- 95_test_vectors.md V-SH9. -/
theorem test_inc_sh9 :
    stepGives { State.reset with mem := load [(0x0010, 0xFF), (0xC000, 0xE6), (0xC001, 0x10)], p := 0x35#8 } (fun t =>
      t.a == 0x00#8 && t.p == 0x37#8 && t.pc == 0xC002#16 && t.clock == 5 && t.read 0x0010#16 == 0x00#8 && t.unimpl == none) = true := by decide
/-- 95_test_vectors.md V-SH10. -/
theorem test_inc_sh10 :
    stepGives { State.reset with mem := load [(0x0200, 0x7F), (0xC000, 0xEE), (0xC001, 0x00), (0xC002, 0x02)], p := 0x34#8 } (fun t =>
      t.a == 0x00#8 && t.p == 0xB4#8 && t.pc == 0xC003#16 && t.clock == 6 && t.read 0x0200#16 == 0x80#8 && t.unimpl == none) = true := by decide
/-- 95_test_vectors.md V-SH13. -/
theorem test_inx_sh13 :
    stepGives { State.reset with mem := load [(0xC000, 0xE8)], x := 0xFF#8, p := 0x34#8 } (fun t =>
      t.a == 0x00#8 && t.x == 0x00#8 && t.p == 0x36#8 && t.pc == 0xC001#16 && t.clock == 2 && t.unimpl == none) = true := by decide
/-- 95_test_vectors.md V-SH15. -/
theorem test_iny_sh15 :
    stepGives { State.reset with mem := load [(0xC000, 0xC8)], y := 0x7F#8, p := 0x34#8 } (fun t =>
      t.a == 0x00#8 && t.y == 0x80#8 && t.p == 0xB4#8 && t.pc == 0xC001#16 && t.clock == 2 && t.unimpl == none) = true := by decide
/-- 95_test_vectors.md V-CT10. -/
theorem test_jmp_ct10 :
    stepGives { State.reset with mem := load [(0xC000, 0x4C), (0xC001, 0x00), (0xC002, 0xC0)] } (fun t =>
      t.a == 0x00#8 && t.p == 0x34#8 && t.pc == 0xC000#16 && t.clock == 3 && t.unimpl == none) = true := by decide
/-- 95_test_vectors.md V-CT11. -/
theorem test_jsr_ct11 :
    stepGives { State.reset with mem := load [(0xC002, 0x20), (0xC003, 0x00), (0xC004, 0x80)], pc := 0xC002#16 } (fun t =>
      t.a == 0x00#8 && t.sp == 0xFB#8 && t.p == 0x34#8 && t.pc == 0x8000#16 && t.clock == 6 && t.read 0x01FD#16 == 0xC0#8 && t.read 0x01FC#16 == 0x04#8 && t.unimpl == none) = true := by decide
/-- 95_test_vectors.md V-CT12. -/
theorem test_jsr_ct12 :
    stepGives { State.reset with mem := load [(0xC000, 0x20), (0xC001, 0x00), (0xC002, 0x80)], sp := 0x00#8 } (fun t =>
      t.a == 0x00#8 && t.sp == 0xFE#8 && t.p == 0x34#8 && t.pc == 0x8000#16 && t.clock == 6 && t.read 0x0100#16 == 0xC0#8 && t.read 0x01FF#16 == 0x02#8 && t.unimpl == none) = true := by decide
/-- 95_test_vectors.md V-AM9. -/
theorem test_lda_am9 :
    stepGives { State.reset with mem := load [(0x00FF, 0xF8), (0x0000, 0xFF), (0x0008, 0xEE), (0xC000, 0xB1), (0xC001, 0xFF)], y := 0x10#8 } (fun t =>
      t.a == 0xEE#8 && t.p == 0xB4#8 && t.pc == 0xC002#16 && t.clock == 5 && t.unimpl == none) = true := by decide
/-- 95_test_vectors.md V-LS1. -/
theorem test_lda_ls1 :
    stepGives { State.reset with mem := load [(0xC000, 0xA9), (0xC001, 0x00)], a := 0x55#8 } (fun t =>
      t.a == 0x00#8 && t.p == 0x36#8 && t.pc == 0xC002#16 && t.clock == 2 && t.unimpl == none) = true := by decide
/-- 95_test_vectors.md V-AM4. -/
theorem test_ldx_am4 :
    stepGives { State.reset with mem := load [(0x0010, 0x05), (0xC000, 0xB6), (0xC001, 0x80)], y := 0x90#8 } (fun t =>
      t.a == 0x00#8 && t.x == 0x05#8 && t.p == 0x34#8 && t.pc == 0xC002#16 && t.clock == 4 && t.unimpl == none) = true := by decide
/-- 95_test_vectors.md V-LS3. -/
theorem test_ldx_ls3 :
    stepGives { State.reset with mem := load [(0xC000, 0xA2), (0xC001, 0x7F)], p := 0xB6#8 } (fun t =>
      t.a == 0x00#8 && t.x == 0x7F#8 && t.p == 0x34#8 && t.pc == 0xC002#16 && t.clock == 2 && t.unimpl == none) = true := by decide
/-- 95_test_vectors.md V-LS4. -/
theorem test_ldy_ls4 :
    stepGives { State.reset with mem := load [(0x0215, 0xFF), (0xC000, 0xBC), (0xC001, 0x10), (0xC002, 0x02)], x := 0x05#8 } (fun t =>
      t.a == 0x00#8 && t.y == 0xFF#8 && t.p == 0xB4#8 && t.pc == 0xC003#16 && t.clock == 4 && t.unimpl == none) = true := by decide
/-- 95_test_vectors.md V-SH3. -/
theorem test_lsr_sh3 :
    stepGives { State.reset with mem := load [(0xC000, 0x4A)], a := 0x01#8, p := 0xB4#8 } (fun t =>
      t.a == 0x00#8 && t.p == 0x37#8 && t.pc == 0xC001#16 && t.clock == 2 && t.unimpl == none) = true := by decide
/-- 95_test_vectors.md V-SH4. -/
theorem test_lsr_sh4 :
    stepGives { State.reset with mem := load [(0x0100, 0x03), (0xC000, 0x5E), (0xC001, 0xFF), (0xC002, 0x00)], x := 0x01#8, p := 0x34#8 } (fun t =>
      t.a == 0x00#8 && t.p == 0x35#8 && t.pc == 0xC003#16 && t.clock == 7 && t.read 0x0100#16 == 0x01#8 && t.unimpl == none) = true := by decide
/-- 95_test_vectors.md V-ST19. -/
theorem test_nop_st19 :
    stepGives { State.reset with mem := load [(0xC000, 0xEA)], a := 0x12#8, p := 0x35#8 } (fun t =>
      t.a == 0x12#8 && t.p == 0x35#8 && t.pc == 0xC001#16 && t.clock == 2 && t.unimpl == none) = true := by decide
/-- 95_test_vectors.md V-ST20. -/
theorem test_nop_st20 :
    stepGives { State.reset with mem := load [(0xC000, 0x1A)], a := 0x12#8, p := 0x35#8 } (fun t =>
      t.a == 0x12#8 && t.p == 0x35#8 && t.pc == 0xC001#16 && t.clock == 2 && t.unimpl == none) = true := by decide
/-- 95_test_vectors.md V-LG3. -/
theorem test_ora_lg3 :
    stepGives { State.reset with mem := load [(0xC000, 0x09), (0xC001, 0x00)], a := 0x00#8, p := 0x34#8 } (fun t =>
      t.a == 0x00#8 && t.p == 0x36#8 && t.pc == 0xC002#16 && t.clock == 2 && t.unimpl == none) = true := by decide
/-- 95_test_vectors.md V-LG4. -/
theorem test_ora_lg4 :
    stepGives { State.reset with mem := load [(0xC000, 0x09), (0xC001, 0x81)], a := 0x02#8, p := 0x34#8 } (fun t =>
      t.a == 0x83#8 && t.p == 0xB4#8 && t.pc == 0xC002#16 && t.clock == 2 && t.unimpl == none) = true := by decide
/-- 95_test_vectors.md V-ST1. -/
theorem test_pha_st1 :
    stepGives { State.reset with mem := load [(0xC000, 0x48)], a := 0x7F#8, sp := 0x00#8 } (fun t =>
      t.a == 0x7F#8 && t.sp == 0xFF#8 && t.p == 0x34#8 && t.pc == 0xC001#16 && t.clock == 3 && t.read 0x0100#16 == 0x7F#8 && t.unimpl == none) = true := by decide
/-- 95_test_vectors.md V-ST3. -/
theorem test_php_st3 :
    stepGives { State.reset with mem := load [(0xC000, 0x08)], p := 0x30#8 } (fun t =>
      t.a == 0x00#8 && t.sp == 0xFC#8 && t.p == 0x30#8 && t.pc == 0xC001#16 && t.clock == 3 && t.read 0x01FD#16 == 0x30#8 && t.unimpl == none) = true := by decide
/-- 95_test_vectors.md V-ST2. -/
theorem test_pla_st2 :
    stepGives { State.reset with mem := load [(0x0100, 0x00), (0xC000, 0x68)], sp := 0xFF#8 } (fun t =>
      t.a == 0x00#8 && t.sp == 0x00#8 && t.p == 0x36#8 && t.pc == 0xC001#16 && t.clock == 4 && t.unimpl == none) = true := by decide
/-- 95_test_vectors.md V-ST4. -/
theorem test_plp_st4 :
    stepGives { State.reset with mem := load [(0x01FD, 0x00), (0xC000, 0x28)], sp := 0xFC#8, p := 0x34#8 } (fun t =>
      t.a == 0x00#8 && t.sp == 0xFD#8 && t.p == 0x30#8 && t.pc == 0xC001#16 && t.clock == 4 && t.unimpl == none) = true := by decide
/-- 95_test_vectors.md V-ST5. -/
theorem test_plp_st5 :
    stepGives { State.reset with mem := load [(0x01FD, 0xCF), (0xC000, 0x28)], sp := 0xFC#8, p := 0x34#8 } (fun t =>
      t.a == 0x00#8 && t.sp == 0xFD#8 && t.p == 0xFF#8 && t.pc == 0xC001#16 && t.clock == 4 && t.unimpl == none) = true := by decide
/-- 95_test_vectors.md V-SH5. -/
theorem test_rol_sh5 :
    stepGives { State.reset with mem := load [(0xC000, 0x2A)], a := 0x80#8, p := 0x34#8 } (fun t =>
      t.a == 0x00#8 && t.p == 0x37#8 && t.pc == 0xC001#16 && t.clock == 2 && t.unimpl == none) = true := by decide
/-- 95_test_vectors.md V-SH6. -/
theorem test_rol_sh6 :
    stepGives { State.reset with mem := load [(0xC000, 0x2A)], a := 0x00#8, p := 0x35#8 } (fun t =>
      t.a == 0x01#8 && t.p == 0x34#8 && t.pc == 0xC001#16 && t.clock == 2 && t.unimpl == none) = true := by decide
/-- 95_test_vectors.md V-SH7. -/
theorem test_ror_sh7 :
    stepGives { State.reset with mem := load [(0xC000, 0x6A)], a := 0x00#8, p := 0x35#8 } (fun t =>
      t.a == 0x80#8 && t.p == 0xB4#8 && t.pc == 0xC001#16 && t.clock == 2 && t.unimpl == none) = true := by decide
/-- 95_test_vectors.md V-SH8. -/
theorem test_ror_sh8 :
    stepGives { State.reset with mem := load [(0x0011, 0x01), (0xC000, 0x76), (0xC001, 0x10)], x := 0x01#8, p := 0x34#8 } (fun t =>
      t.a == 0x00#8 && t.p == 0x37#8 && t.pc == 0xC002#16 && t.clock == 6 && t.read 0x0011#16 == 0x00#8 && t.unimpl == none) = true := by decide
/-- 95_test_vectors.md V-CT16. -/
theorem test_rti_ct16 :
    stepGives { State.reset with mem := load [(0x01FB, 0xC3), (0x01FC, 0x06), (0x01FD, 0xC0), (0xC000, 0x40)], sp := 0xFA#8, p := 0x34#8 } (fun t =>
      t.a == 0x00#8 && t.sp == 0xFD#8 && t.p == 0xF3#8 && t.pc == 0xC006#16 && t.clock == 6 && t.unimpl == none) = true := by decide
/-- 95_test_vectors.md V-CT17. -/
theorem test_rti_ct17 :
    stepGives { State.reset with mem := load [(0x01FB, 0x00), (0x01FC, 0x00), (0x01FD, 0x80), (0xC000, 0x40)], sp := 0xFA#8, p := 0x34#8 } (fun t =>
      t.a == 0x00#8 && t.sp == 0xFD#8 && t.p == 0x30#8 && t.pc == 0x8000#16 && t.clock == 6 && t.unimpl == none) = true := by decide
/-- 95_test_vectors.md V-CT13. -/
theorem test_rts_ct13 :
    stepGives { State.reset with mem := load [(0x01FC, 0x04), (0x01FD, 0xC0), (0xC000, 0x60)], sp := 0xFB#8 } (fun t =>
      t.a == 0x00#8 && t.sp == 0xFD#8 && t.p == 0x34#8 && t.pc == 0xC005#16 && t.clock == 6 && t.unimpl == none) = true := by decide
/-- 95_test_vectors.md V-CT14. -/
theorem test_rts_ct14 :
    stepGives { State.reset with mem := load [(0x01FC, 0xFF), (0x01FD, 0xFF), (0xC000, 0x60)], sp := 0xFB#8 } (fun t =>
      t.a == 0x00#8 && t.sp == 0xFD#8 && t.p == 0x34#8 && t.pc == 0x0000#16 && t.clock == 6 && t.unimpl == none) = true := by decide
/-- 95_test_vectors.md V-AR10. -/
theorem test_sbc_ar10 :
    stepGives { State.reset with mem := load [(0xC000, 0xE9), (0xC001, 0xFF)], a := 0x7F#8, p := 0x35#8 } (fun t =>
      t.a == 0x80#8 && t.p == 0xF4#8 && t.pc == 0xC002#16 && t.clock == 2 && t.unimpl == none) = true := by decide
/-- 95_test_vectors.md V-AR13. -/
theorem test_sbc_ar13 :
    stepGives { State.reset with mem := load [(0xC000, 0xEB), (0xC001, 0x01)], a := 0x05#8, p := 0x35#8 } (fun t =>
      t.a == 0x04#8 && t.p == 0x35#8 && t.pc == 0xC002#16 && t.clock == 2 && t.unimpl == none) = true := by decide
/-- 95_test_vectors.md V-ST7. -/
theorem test_sec_st7 :
    stepGives { State.reset with mem := load [(0xC000, 0x38)], p := 0x30#8 } (fun t =>
      t.a == 0x00#8 && t.p == 0x31#8 && t.pc == 0xC001#16 && t.clock == 2 && t.unimpl == none) = true := by decide
/-- 95_test_vectors.md V-ST9. -/
theorem test_sed_st9 :
    stepGives { State.reset with mem := load [(0xC000, 0xF8)], p := 0x30#8 } (fun t =>
      t.a == 0x00#8 && t.p == 0x38#8 && t.pc == 0xC001#16 && t.clock == 2 && t.unimpl == none) = true := by decide
/-- 95_test_vectors.md V-ST11. -/
theorem test_sei_st11 :
    stepGives { State.reset with mem := load [(0xC000, 0x78)], p := 0x30#8 } (fun t =>
      t.a == 0x00#8 && t.p == 0x34#8 && t.pc == 0xC001#16 && t.clock == 2 && t.unimpl == none) = true := by decide
/-- 95_test_vectors.md V-LS5. -/
theorem test_sta_ls5 :
    stepGives { State.reset with mem := load [(0x0020, 0xFF), (0xC000, 0x85), (0xC001, 0x20)], a := 0x00#8, p := 0x34#8 } (fun t =>
      t.a == 0x00#8 && t.p == 0x34#8 && t.pc == 0xC002#16 && t.clock == 3 && t.read 0x0020#16 == 0x00#8 && t.unimpl == none) = true := by decide
/-- 95_test_vectors.md V-LS8. -/
theorem test_sta_ls8 :
    stepGives { State.reset with mem := load [(0x0010, 0xFF), (0x0011, 0x01), (0xC000, 0x91), (0xC001, 0x10)], a := 0x5A#8, y := 0x01#8 } (fun t =>
      t.a == 0x5A#8 && t.p == 0x34#8 && t.pc == 0xC002#16 && t.clock == 6 && t.read 0x0200#16 == 0x5A#8 && t.unimpl == none) = true := by decide
/-- 95_test_vectors.md V-LS6. -/
theorem test_stx_ls6 :
    stepGives { State.reset with mem := load [(0xC000, 0x96), (0xC001, 0xFF)], x := 0x80#8, y := 0x02#8 } (fun t =>
      t.a == 0x00#8 && t.p == 0x34#8 && t.pc == 0xC002#16 && t.clock == 4 && t.read 0x0001#16 == 0x80#8 && t.unimpl == none) = true := by decide
/-- 95_test_vectors.md V-LS7. -/
theorem test_sty_ls7 :
    stepGives { State.reset with mem := load [(0xC000, 0x8C), (0xC001, 0x00), (0xC002, 0x07)], y := 0x9C#8 } (fun t =>
      t.a == 0x00#8 && t.p == 0x34#8 && t.pc == 0xC003#16 && t.clock == 4 && t.read 0x0700#16 == 0x9C#8 && t.unimpl == none) = true := by decide
/-- 95_test_vectors.md V-ST13. -/
theorem test_tax_st13 :
    stepGives { State.reset with mem := load [(0xC000, 0xAA)], a := 0x00#8, x := 0x55#8, p := 0xB4#8 } (fun t =>
      t.a == 0x00#8 && t.x == 0x00#8 && t.p == 0x36#8 && t.pc == 0xC001#16 && t.clock == 2 && t.unimpl == none) = true := by decide
/-- 95_test_vectors.md V-ST14. -/
theorem test_tay_st14 :
    stepGives { State.reset with mem := load [(0xC000, 0xA8)], a := 0x80#8, p := 0x34#8 } (fun t =>
      t.a == 0x80#8 && t.y == 0x80#8 && t.p == 0xB4#8 && t.pc == 0xC001#16 && t.clock == 2 && t.unimpl == none) = true := by decide
/-- 95_test_vectors.md V-ST15. -/
theorem test_tsx_st15 :
    stepGives { State.reset with mem := load [(0xC000, 0xBA)] } (fun t =>
      t.a == 0x00#8 && t.x == 0xFD#8 && t.p == 0xB4#8 && t.pc == 0xC001#16 && t.clock == 2 && t.unimpl == none) = true := by decide
/-- 95_test_vectors.md V-ST16. -/
theorem test_txa_st16 :
    stepGives { State.reset with mem := load [(0xC000, 0x8A)], x := 0x00#8, a := 0x11#8, p := 0x34#8 } (fun t =>
      t.a == 0x00#8 && t.p == 0x36#8 && t.pc == 0xC001#16 && t.clock == 2 && t.unimpl == none) = true := by decide
/-- 95_test_vectors.md V-ST17. -/
theorem test_txs_st17 :
    stepGives { State.reset with mem := load [(0xC000, 0x9A)], x := 0x00#8, p := 0x34#8 } (fun t =>
      t.a == 0x00#8 && t.sp == 0x00#8 && t.p == 0x34#8 && t.pc == 0xC001#16 && t.clock == 2 && t.unimpl == none) = true := by decide
/-- 95_test_vectors.md V-ST18. -/
theorem test_tya_st18 :
    stepGives { State.reset with mem := load [(0xC000, 0x98)], y := 0xFF#8, p := 0x34#8 } (fun t =>
      t.a == 0xFF#8 && t.p == 0xB4#8 && t.pc == 0xC001#16 && t.clock == 2 && t.unimpl == none) = true := by decide
/-- R271: the step advances and marks; A, X, P and memory stay (R270). -/
theorem test_aac :
    stepGives { State.reset with mem := load [(0x0010, 0x55), (0xC000, 0x2B), (0xC001, 0x10)], a := 0xFF#8, x := 0x0F#8 } (fun t =>
      t.pc == 0xC002#16 && t.clock == 2 && t.a == 0xFF#8 && t.x == 0x0F#8 && t.p == 0x34#8 &&
        t.read 0x0010#16 == 0x55#8 && t.unimpl == some (.aac, 0x2B#8)) = true := by decide
/-- 95_test_vectors.md V-UD3. -/
theorem test_aax_ud3 :
    stepGives { State.reset with mem := load [(0x0010, 0x00), (0xC000, 0x87), (0xC001, 0x10)], a := 0xFF#8, x := 0x0F#8 } (fun t =>
      t.a == 0xFF#8 && t.p == 0x34#8 && t.pc == 0xC002#16 && t.clock == 3 && t.read 0x0010#16 == 0x00#8 && t.unimpl == some (.aax, 0x87#8)) = true := by decide
/-- R273: the step advances and marks; A, X, P and memory stay (R270). -/
theorem test_arr :
    stepGives { State.reset with mem := load [(0x0010, 0x55), (0xC000, 0x6B), (0xC001, 0x10)], a := 0xFF#8, x := 0x0F#8 } (fun t =>
      t.pc == 0xC002#16 && t.clock == 2 && t.a == 0xFF#8 && t.x == 0x0F#8 && t.p == 0x34#8 &&
        t.read 0x0010#16 == 0x55#8 && t.unimpl == some (.arr, 0x6B#8)) = true := by decide
/-- R274: the step advances and marks; A, X, P and memory stay (R270). -/
theorem test_asr :
    stepGives { State.reset with mem := load [(0x0010, 0x55), (0xC000, 0x4B), (0xC001, 0x10)], a := 0xFF#8, x := 0x0F#8 } (fun t =>
      t.pc == 0xC002#16 && t.clock == 2 && t.a == 0xFF#8 && t.x == 0x0F#8 && t.p == 0x34#8 &&
        t.read 0x0010#16 == 0x55#8 && t.unimpl == some (.asr, 0x4B#8)) = true := by decide
/-- R275: the step advances and marks; A, X, P and memory stay (R270). -/
theorem test_atx :
    stepGives { State.reset with mem := load [(0x0010, 0x55), (0xC000, 0xAB), (0xC001, 0x10)], a := 0xFF#8, x := 0x0F#8 } (fun t =>
      t.pc == 0xC002#16 && t.clock == 2 && t.a == 0xFF#8 && t.x == 0x0F#8 && t.p == 0x34#8 &&
        t.read 0x0010#16 == 0x55#8 && t.unimpl == some (.atx, 0xAB#8)) = true := by decide
/-- R276: the step advances and marks; A, X, P and memory stay (R270). -/
theorem test_axa :
    stepGives { State.reset with mem := load [(0x0010, 0x55), (0xC000, 0x9F), (0xC001, 0x10)], a := 0xFF#8, x := 0x0F#8 } (fun t =>
      t.pc == 0xC003#16 && t.clock == 5 && t.a == 0xFF#8 && t.x == 0x0F#8 && t.p == 0x34#8 &&
        t.read 0x0010#16 == 0x55#8 && t.unimpl == some (.axa, 0x9F#8)) = true := by decide
/-- R277: the step advances and marks; A, X, P and memory stay (R270). -/
theorem test_axs :
    stepGives { State.reset with mem := load [(0x0010, 0x55), (0xC000, 0xCB), (0xC001, 0x10)], a := 0xFF#8, x := 0x0F#8 } (fun t =>
      t.pc == 0xC002#16 && t.clock == 2 && t.a == 0xFF#8 && t.x == 0x0F#8 && t.p == 0x34#8 &&
        t.read 0x0010#16 == 0x55#8 && t.unimpl == some (.axs, 0xCB#8)) = true := by decide
/-- 95_test_vectors.md V-UD4. -/
theorem test_dcp_ud4 :
    stepGives { State.reset with mem := load [(0x0010, 0x01), (0xC000, 0xC7), (0xC001, 0x10)] } (fun t =>
      t.a == 0x00#8 && t.p == 0x34#8 && t.pc == 0xC002#16 && t.clock == 5 && t.read 0x0010#16 == 0x01#8 && t.unimpl == some (.dcp, 0xC7#8)) = true := by decide
/-- 95_test_vectors.md V-UD6. -/
theorem test_dop_ud6 :
    stepGives { State.reset with mem := load [(0xC000, 0x04), (0xC001, 0x44)] } (fun t =>
      t.a == 0x00#8 && t.p == 0x34#8 && t.pc == 0xC002#16 && t.clock == 3 && t.unimpl == some (.dop, 0x04#8)) = true := by decide
/-- R280: the step advances and marks; A, X, P and memory stay (R270). -/
theorem test_isc :
    stepGives { State.reset with mem := load [(0x0010, 0x55), (0xC000, 0xFF), (0xC001, 0x10)], a := 0xFF#8, x := 0x0F#8 } (fun t =>
      t.pc == 0xC003#16 && t.clock == 7 && t.a == 0xFF#8 && t.x == 0x0F#8 && t.p == 0x34#8 &&
        t.read 0x0010#16 == 0x55#8 && t.unimpl == some (.isc, 0xFF#8)) = true := by decide
/-- 95_test_vectors.md V-UD1. -/
theorem test_kil_ud1 :
    stepGives { State.reset with mem := load [(0xC000, 0x02)] } (fun t =>
      t.a == 0x00#8 && t.p == 0x34#8 && t.pc == 0xC001#16 && t.clock == 2 && t.unimpl == some (.kil, 0x02#8)) = true := by decide
/-- R282: the step advances and marks; A, X, P and memory stay (R270). -/
theorem test_lar :
    stepGives { State.reset with mem := load [(0x0010, 0x55), (0xC000, 0xBB), (0xC001, 0x10)], a := 0xFF#8, x := 0x0F#8 } (fun t =>
      t.pc == 0xC003#16 && t.clock == 4 && t.a == 0xFF#8 && t.x == 0x0F#8 && t.p == 0x34#8 &&
        t.read 0x0010#16 == 0x55#8 && t.unimpl == some (.lar, 0xBB#8)) = true := by decide
/-- 95_test_vectors.md V-UD2. -/
theorem test_lax_ud2 :
    stepGives { State.reset with mem := load [(0x0010, 0x55), (0xC000, 0xA7), (0xC001, 0x10)] } (fun t =>
      t.a == 0x00#8 && t.p == 0x34#8 && t.pc == 0xC002#16 && t.clock == 3 && t.unimpl == some (.lax, 0xA7#8)) = true := by decide
/-- R284: the step advances and marks; A, X, P and memory stay (R270). -/
theorem test_rla :
    stepGives { State.reset with mem := load [(0x0010, 0x55), (0xC000, 0x3F), (0xC001, 0x10)], a := 0xFF#8, x := 0x0F#8 } (fun t =>
      t.pc == 0xC003#16 && t.clock == 7 && t.a == 0xFF#8 && t.x == 0x0F#8 && t.p == 0x34#8 &&
        t.read 0x0010#16 == 0x55#8 && t.unimpl == some (.rla, 0x3F#8)) = true := by decide
/-- R285: the step advances and marks; A, X, P and memory stay (R270). -/
theorem test_rra :
    stepGives { State.reset with mem := load [(0x0010, 0x55), (0xC000, 0x7F), (0xC001, 0x10)], a := 0xFF#8, x := 0x0F#8 } (fun t =>
      t.pc == 0xC003#16 && t.clock == 7 && t.a == 0xFF#8 && t.x == 0x0F#8 && t.p == 0x34#8 &&
        t.read 0x0010#16 == 0x55#8 && t.unimpl == some (.rra, 0x7F#8)) = true := by decide
/-- 95_test_vectors.md V-UD7. -/
theorem test_slo_ud7 :
    stepGives { State.reset with mem := load [(0x00FF, 0x00), (0x0000, 0x02), (0xC000, 0x03), (0xC001, 0xFF)], x := 0x01#8 } (fun t =>
      t.a == 0x00#8 && t.p == 0x34#8 && t.pc == 0xC002#16 && t.clock == 8 && t.read 0x0200#16 == 0x00#8 && t.unimpl == some (.slo, 0x03#8)) = true := by decide
/-- R287: the step advances and marks; A, X, P and memory stay (R270). -/
theorem test_sre :
    stepGives { State.reset with mem := load [(0x0010, 0x55), (0xC000, 0x5F), (0xC001, 0x10)], a := 0xFF#8, x := 0x0F#8 } (fun t =>
      t.pc == 0xC003#16 && t.clock == 7 && t.a == 0xFF#8 && t.x == 0x0F#8 && t.p == 0x34#8 &&
        t.read 0x0010#16 == 0x55#8 && t.unimpl == some (.sre, 0x5F#8)) = true := by decide
/-- R288: the step advances and marks; A, X, P and memory stay (R270). -/
theorem test_sxa :
    stepGives { State.reset with mem := load [(0x0010, 0x55), (0xC000, 0x9E), (0xC001, 0x10)], a := 0xFF#8, x := 0x0F#8 } (fun t =>
      t.pc == 0xC003#16 && t.clock == 5 && t.a == 0xFF#8 && t.x == 0x0F#8 && t.p == 0x34#8 &&
        t.read 0x0010#16 == 0x55#8 && t.unimpl == some (.sxa, 0x9E#8)) = true := by decide
/-- R289: the step advances and marks; A, X, P and memory stay (R270). -/
theorem test_sya :
    stepGives { State.reset with mem := load [(0x0010, 0x55), (0xC000, 0x9C), (0xC001, 0x10)], a := 0xFF#8, x := 0x0F#8 } (fun t =>
      t.pc == 0xC003#16 && t.clock == 5 && t.a == 0xFF#8 && t.x == 0x0F#8 && t.p == 0x34#8 &&
        t.read 0x0010#16 == 0x55#8 && t.unimpl == some (.sya, 0x9C#8)) = true := by decide
/-- 95_test_vectors.md V-UD5. -/
theorem test_top_ud5 :
    stepGives { State.reset with mem := load [(0xC000, 0x0C), (0xC001, 0x34), (0xC002, 0x12)] } (fun t =>
      t.a == 0x00#8 && t.p == 0x34#8 && t.pc == 0xC003#16 && t.clock == 4 && t.unimpl == some (.top, 0x0C#8)) = true := by decide
/-- R291: the step advances and marks; A, X, P and memory stay (R270). -/
theorem test_xaa :
    stepGives { State.reset with mem := load [(0x0010, 0x55), (0xC000, 0x8B), (0xC001, 0x10)], a := 0xFF#8, x := 0x0F#8 } (fun t =>
      t.pc == 0xC002#16 && t.clock == 2 && t.a == 0xFF#8 && t.x == 0x0F#8 && t.p == 0x34#8 &&
        t.read 0x0010#16 == 0x55#8 && t.unimpl == some (.xaa, 0x8B#8)) = true := by decide
/-- R292: the step advances and marks; A, X, P and memory stay (R270). -/
theorem test_xas :
    stepGives { State.reset with mem := load [(0x0010, 0x55), (0xC000, 0x9B), (0xC001, 0x10)], a := 0xFF#8, x := 0x0F#8 } (fun t =>
      t.pc == 0xC003#16 && t.clock == 5 && t.a == 0xFF#8 && t.x == 0x0F#8 && t.p == 0x34#8 &&
        t.read 0x0010#16 == 0x55#8 && t.unimpl == some (.xas, 0x9B#8)) = true := by decide

/-! Witnesses: a concrete state and operands that meet the hypotheses of each statement -/

/-- A state no run starts in: every register set, a program at 0200. -/
def demo : State :=
  { pc := 0x0200#16, sp := 0x80#8, a := 0x12#8, x := 0x34#8, y := 0x56#8, p := 0xB1#8, clock := 7, unimpl := none,
    mem := load [(0x0010, 0x99), (0x0200, 0xA9), (0x0201, 0x80)] }

/-- The same state at an undocumented opcode. -/
def demoUndocumented : State := { demo with mem := load [(0x0200, 0xA7), (0x0201, 0x10)] }

theorem witness_reset : State.reset = State.reset ∧ (∃ m, machine [(1, 2)] = create m) ∧ ∃ u, resetCpu demo = resetCpu u :=
  ⟨rfl, ⟨_, rfl⟩, _, rfl⟩

theorem witness_flagBits : (0 : Nat) < 8 ∧ (7 : Nat) < 8 ∧ Flag.N.pos = 7 ∧ Flag.C.pos = 0 := by decide

theorem witness_created_memory : Memory.wf (load [(0x0000, 0x01), (0xFFFF, 0xFF)]) = true := by decide

theorem witness_invariant : demo.Inv ∧ ∃ t, step demo = .next t := ⟨⟨by decide, by decide⟩, _, rfl⟩

theorem witness_wellFormed :
    (Instr.sta (.indirectIndexed 0xFF#8)).WellFormed ∧ (Instr.jmp (.indirect 0xFFFF#16)).WellFormed ∧ (Instr.nop 0xFA#8).WellFormed := by
  decide

theorem witness_stepRunsDecoded :
    decode [demo.read demo.pc, demo.read (demo.pc + 1#16), demo.read (demo.pc + 2#16)] =
      .ok (.lda (.immediate 0x80#8), [0x00#8]) := by decide

theorem witness_noControlTransfer :
    (lookup (demo.read demo.pc)).tag ∉
      ([.bcc, .bcs, .beq, .bne, .bmi, .bpl, .bvc, .bvs, .jmp, .jsr, .rts, .brk, .rti] : List Tag) := by decide

theorem witness_marked : ({ demo with unimpl := some (.kil, 0x02#8) } : State).unimpl = some (.kil, 0x02#8) := rfl

theorem witness_unmarked :
    demoUndocumented.unimpl = none ∧ (lookup (demoUndocumented.read demoUndocumented.pc)).tag.undocumented = true ∧
      demo.unimpl = none ∧ (lookup (demo.read demo.pc)).tag.undocumented = false := by decide

theorem witness_undocumentedInstruction :
    (Instr.lax (.zeroPage 0x10#8)).tag ∈ ([.aac, .aax, .arr, .asr, .atx, .axa, .axs, .dcp, .dop, .isc, .kil, .lar, .lax, .rla,
      .rra, .slo, .sre, .sxa, .sya, .top, .xaa, .xas] : List Tag) := by decide

theorem witness_undocumentedStep :
    (lookup (demoUndocumented.read demoUndocumented.pc)).tag ∈ ([.aac, .aax, .arr, .asr, .atx, .axa, .axs, .dcp, .dop, .isc,
      .kil, .lar, .lax, .rla, .rra, .slo, .sre, .sxa, .sya, .top, .xaa, .xas] : List Tag) := by decide

theorem witness_memoryOperand :
    (.zeroPage 0x10#8 : Operand) ≠ .implied ∧ (.zeroPage 0x10#8 : Operand) ≠ .accumulator ∧
      (.zeroPage 0x10#8 : Operand).mode ≠ .immediate := by decide

theorem witness_fetchedImmediate : demo.fetchInstr.operand = .immediate 0x80#8 := by decide

theorem witness_pointerInsidePage : lo 0x02FE#16 ≠ 0xFF#8 ∧ lo 0x02FF#16 = 0xFF#8 := by decide

theorem witness_stackInstruction :
    Instr.pha.tag ∈ ([.pha, .php, .jsr, .brk] : List Tag) ∧
      storedAddresses (executeAccesses .brk { State.reset with sp := 0x00#8 }) = [0x0100#16, 0x01FF#16, 0x01FE#16] := by decide

/-- NOP is outside every list of the two write frames, and answers a next state. -/
theorem witness_writeFrames :
    (∃ t, exec (.nop 0xEA#8) demo = .next t) ∧
      (Instr.nop 0xEA#8).tag ∉ ([.lda, .pla, .adc, .sbc, .and, .ora, .eor, .txa, .tya, .ldx, .tax, .tsx, .inx, .dex, .ldy,
        .tay, .iny, .dey, .txs, .pha, .php, .plp, .jsr, .rts, .brk, .rti, .cmp, .cpx, .cpy, .asl, .lsr, .rol, .ror, .clc, .sec,
        .bit, .inc, .dec, .sei, .cli, .sed, .cld, .clv] : List Tag) := ⟨⟨_, rfl⟩, by decide⟩

/-- ASL of a memory cell leaves A: the clause on A holds of it. -/
theorem witness_shiftOfMemory :
    (Instr.asl (.zeroPage 0x10#8)).tag ∉ ([.lda, .pla, .adc, .sbc, .and, .ora, .eor, .txa, .tya] : List Tag) ∧
      ¬((Instr.asl (.zeroPage 0x10#8)).tag ∈ ([.asl, .lsr, .rol, .ror] : List Tag) ∧
        noMem (Instr.asl (.zeroPage 0x10#8)).operand = true) := by decide

theorem witness_sameOutsideIAndD :
    (0xBD#8 : Byte) &&& 0xF3#8 = demo.p &&& 0xF3#8 ∧ (0xBD#8 : Byte) ≠ demo.p ∧
      (lookup (demo.read demo.pc)).tag ≠ .php ∧ (lookup (demo.read demo.pc)).tag ≠ .brk := by decide

theorem witness_sameOutsideIAndD_php :
    (lookup ((machine [(0xC000, 0x08)]).read 0xC000#16)).tag = .php ∧ (0x0000#16 : Word) ≠ stackAddr 0xFD#8 := by decide

theorem witness_sameOutsideIAndD_brk :
    (lookup ((machine []).read 0xC000#16)).tag = .brk ∧ (0x01FD#16 : Word) ≠ stackAddr (0xFD#8 - 2#8) := by decide

theorem witness_shiftOperands : noMem .accumulator = true ∧ noMem (.absoluteX 0x00FF#16) = false := by decide

theorem witness_branchTakenAndNot :
    getFlag demo.p .C = true ∧ getFlag demo.p .Z = false ∧ getFlag demo.p .N = true ∧ getFlag demo.p .V = false := by decide

theorem witness_logMissing : openLog { testParams [] with files := [] } = none := by decide

theorem witness_logPresent : openLog (testParams []) ≠ none := by decide

/-- A log shorter than the tolerance, with a line that differs. -/
theorem witness_toleranceExceedsLog :
    ((["9999\n".toList].length : Nat) : Int) < 2 ∧ ["9999\n".toList][0]? = some "9999\n".toList ∧
      (traceText (stepsCpu 0 (machine [(0xC000, 0xEA)]))).take 4 ≠ (stripTerminator "9999\n".toList).take 4 := by decide

/-- One instruction for each template of the trace line. -/
theorem witness_traceOperands :
    Instr.clc.operand = .implied ∧ (Instr.lsr .accumulator).operand = .accumulator ∧
      (Instr.lda (.immediate 0xFF#8)).operand = .immediate 0xFF#8 ∧ (Instr.sta (.zeroPage 0x10#8)).operand = .zeroPage 0x10#8 ∧
      (Instr.jsr 0xC010#16).operand = .absolute 0xC010#16 ∧ (Instr.jsr 0xC010#16).tag = .jsr ∧
      (Instr.lda (.absolute 0x0200#16)).operand = .absolute 0x0200#16 ∧ (Instr.lda (.absolute 0x0200#16)).tag ≠ .jmp ∧
      (Instr.lda (.absolute 0x0200#16)).tag ≠ .jsr ∧ (Instr.bne 0xFB#8).operand = .relative 0xFB#8 ∧
      (Instr.lda (.zeroPageX 0xFF#8)).operand = .zeroPageX 0xFF#8 ∧ (Instr.ldx (.zeroPageY 0x80#8)).operand = .zeroPageY 0x80#8 ∧
      (Instr.lda (.absoluteX 0x02FF#16)).operand = .absoluteX 0x02FF#16 ∧
      (Instr.sta (.absoluteY 0x0300#16)).operand = .absoluteY 0x0300#16 ∧
      (Instr.jmp (.indirect 0x02FF#16)).operand = .indirect 0x02FF#16 ∧
      (Instr.lda (.indexedIndirect 0x80#8)).operand = .indexedIndirect 0x80#8 ∧
      (Instr.lda (.indirectIndexed 0x89#8)).operand = .indirectIndexed 0x89#8 := by decide

/-- Two states that differ in the byte at 0300, which neither list reads. -/
theorem witness_sameReads :
    demo.write 0x0300#16 0x77#8 ≠ demo ∧
    (let s := demo
     let u := demo.write 0x0300#16 0x77#8
     (u.pc == s.pc && u.sp == s.sp && u.a == s.a && u.x == s.x && u.y == s.y && u.p == s.p && u.clock == s.clock &&
       u.unimpl == s.unimpl && (readAddresses (traceAccesses s)).all (fun a => u.read a == s.read a) &&
       (readAddresses (stepAccesses s)).all fun a => u.read a == s.read a) = true) :=
  ⟨fun h => absurd (congrArg (fun t => t.read 0x0300#16) h) (by decide), by decide⟩

theorem witness_mismatch : (harnessLoop 4 ["9999\n".toList] 1 0 (machine [(0xC000, 0xEA)]) []).2 ≠ [] := by decide

theorem witness_liveBitsSet : demo.p &&& 0x30#8 = 0x30#8 := by decide

theorem witness_good : State.reset.Good ∧ demo.Good := ⟨rfl, rfl⟩

theorem witness_runEnds :
    (runUntil (some 0xC001#16) 3 (machine [(0xC000, 0xEA)])).2 = .stopAddress ∧
      (runUntil none 1 (machine [(0xC000, 0xEA)])).2 = .budget := by decide

end Sys2Proof.Tests
end

section
/-! SUPPORT. What execution can do to a state, said once. The 78 instructions have 22 effects between them: `effectOf` computes the
effect of an instruction, with every value and address it needs, and `Effect.apply` carries it out; `exec_eq` ties the two to
`exec`. A fact about every instruction is then a fact about every effect. -/

namespace Sys2Proof.Machine

/-- What one instruction does to a state whose PC is already past it. -/
inductive Effect where
  | mark (i : Instr)
  | keep
  | loadA (v : Byte)
  | loadX (v : Byte)
  | loadY (v : Byte)
  | store (a : Word) (v : Byte)
  | storeZN (a : Word) (v : Byte)
  | alu (r : AluResult)
  | compare (reg m : Byte)
  | bitTest (m : Byte)
  | shiftA (r : ShiftResult)
  | shiftMem (a : Word) (r : ShiftResult)
  | jump (target : Word)
  | call (ret target : Word)
  | returnFromCall
  | trapEntry
  | trapReturn
  | push (v : Byte)
  | pullA
  | pullP
  | writeFlag (f : Flag) (b : Bool)
  | setSP (v : Byte)

/-- The state after an effect. -/
def Effect.apply (e : Effect) (s : State) : State :=
  match e with
  | .mark i => s.raiseUnimplemented i
  | .keep => s
  | .loadA v => (s.withA v).withZN v
  | .loadX v => (s.withX v).withZN v
  | .loadY v => (s.withY v).withZN v
  | .store a v => s.write a v
  | .storeZN a v => (s.write a v).withZN v
  | .alu r => s.withAlu r
  | .compare reg m => s.withP (compareStatus s.p reg m)
  | .bitTest m => s.withP (bitStatus s.p s.a m)
  | .shiftA r => (s.withA r.value).withP (shiftStatus s.p r)
  | .shiftMem a r => (s.write a r.value).withP (shiftStatus s.p r)
  | .jump target => s.withPC target
  | .call ret target => (s.push16 ret).withPC target
  | .returnFromCall => s.afterPull16.withPC (s.pulled16 + 1#16)
  | .trapEntry => s.trapEntry
  | .trapReturn => s.trapReturn
  | .push v => s.push v
  | .pullA => (s.afterPull.withA s.pulled).withZN s.pulled
  | .pullP => s.afterPull.withP (statusPulled s.p s.pulled)
  | .writeFlag f b => s.withFlag f b
  | .setSP v => s.withSP v

/-- A branch jumps to its target or to where PC is (R210). -/
def branchEffect (cond : Bool) (off : Byte) (s : State) : Effect := .jump (if cond then resolve (.relative off) s else s.pc)

/-- A shift works on A or on one byte of memory (R190–R193). -/
def shiftEffect (f : Byte → ShiftResult) (op : Operand) (s : State) : Effect :=
  if noMem op then .shiftA (f s.a) else .shiftMem (resolve op s) (f (operandByte op s))

/-- The effect of an instruction in the state its handler sees. -/
def effectOf (i : Instr) (s : State) : Effect :=
  match i with
  | .lda op => .loadA (operandByte op s)
  | .ldx op => .loadX (operandByte op s)
  | .ldy op => .loadY (operandByte op s)
  | .sta op => .store (resolve op s) s.a
  | .stx op => .store (resolve op s) s.x
  | .sty op => .store (resolve op s) s.y
  | .adc op => .alu (addWithCarry s.a (operandByte op s) (s.flag .C))
  | .sbc op _ => .alu (subWithBorrow s.a (operandByte op s) (s.flag .C))
  | .cmp op => .compare s.a (operandByte op s)
  | .cpx op => .compare s.x (operandByte op s)
  | .cpy op => .compare s.y (operandByte op s)
  | .and op => .loadA (s.a &&& operandByte op s)
  | .ora op => .loadA (s.a ||| operandByte op s)
  | .eor op => .loadA (s.a ^^^ operandByte op s)
  | .bit op => .bitTest (operandByte op s)
  | .asl op => shiftEffect shiftLeft op s
  | .lsr op => shiftEffect shiftRight op s
  | .rol op => shiftEffect (rotateLeft (s.flag .C)) op s
  | .ror op => shiftEffect (rotateRight (s.flag .C)) op s
  | .inc op => .storeZN (resolve op s) (operandByte op s + 1#8)
  | .dec op => .storeZN (resolve op s) (operandByte op s - 1#8)
  | .inx => .loadX (s.x + 1#8)
  | .dex => .loadX (s.x - 1#8)
  | .iny => .loadY (s.y + 1#8)
  | .dey => .loadY (s.y - 1#8)
  | .bcc off => branchEffect (!s.flag .C) off s
  | .bcs off => branchEffect (s.flag .C) off s
  | .beq off => branchEffect (s.flag .Z) off s
  | .bne off => branchEffect (!s.flag .Z) off s
  | .bmi off => branchEffect (s.flag .N) off s
  | .bpl off => branchEffect (!s.flag .N) off s
  | .bvc off => branchEffect (!s.flag .V) off s
  | .bvs off => branchEffect (s.flag .V) off s
  | .jmp op => .jump (resolve op s)
  | .jsr addr => .call (s.pc - 1#16) addr
  | .rts => .returnFromCall
  | .brk => .trapEntry
  | .rti => .trapReturn
  | .pha => .push s.a
  | .php => .push (statusPushed s.p)
  | .pla => .pullA
  | .plp => .pullP
  | .clc => .writeFlag .C false
  | .sec => .writeFlag .C true
  | .cld => .writeFlag .D false
  | .sed => .writeFlag .D true
  | .cli => .writeFlag .I false
  | .sei => .writeFlag .I true
  | .clv => .writeFlag .V false
  | .tax => .loadX s.a
  | .tay => .loadY s.a
  | .tsx => .loadX s.sp
  | .txa => .loadA s.x
  | .txs => .setSP s.x
  | .tya => .loadA s.y
  | .nop _ => .keep
  | .aac _ _ | .aax _ | .arr _ | .asr _ | .atx _ | .axa _ | .axs _ | .dcp _ | .dop _ _ | .isc _ | .kil _ | .lar _ | .lax _
  | .rla _ | .rra _ | .slo _ | .sre _ | .sxa _ | .sya _ | .top _ _ | .xaa _ | .xas _ => .mark i

theorem branchIf_eq_apply (cond : Bool) (off : Byte) (s : State) :
    branchIf cond off s = (branchEffect cond off s).apply s := by
  cases cond <;> rfl

theorem shiftWith_eq_apply (f : Byte → ShiftResult) (op : Operand) (s : State) :
    shiftWith f op s = (shiftEffect f op s).apply s := by
  simp only [shiftWith, writeShifted, shiftOperand, shiftEffect]
  split <;> rfl

/-- Every instruction answers the next state that its effect leaves (R112). -/
theorem exec_eq (i : Instr) (s : State) : exec i s = .next ((effectOf i s).apply s) := by
  cases i
  case bcc | bcs | beq | bne | bmi | bpl | bvc | bvs => exact congrArg _ (branchIf_eq_apply _ _ s)
  case asl | lsr | rol | ror => exact congrArg _ (shiftWith_eq_apply _ _ s)
  all_goals rfl

/-- R110: a step is the effect of the fetched instruction, after PC moved past it and before the clock advances. -/
theorem step_eq (s : State) :
    step s = .next (((effectOf s.fetchInstr s.enter).apply s.enter).tick s.fetchCycles) :=
  step_of_exec (exec_eq _ _)

/-! Which instructions have which effect -/

/-- The tags of the instructions that may have the effect. -/
def Effect.tags : Effect → List Tag
  | .mark i => [i.tag]
  | .keep => [.nop]
  | .loadA _ => [.lda, .and, .ora, .eor, .txa, .tya]
  | .loadX _ => [.ldx, .tax, .tsx, .inx, .dex]
  | .loadY _ => [.ldy, .tay, .iny, .dey]
  | .store _ _ => [.sta, .stx, .sty]
  | .storeZN _ _ => [.inc, .dec]
  | .alu _ => [.adc, .sbc]
  | .compare _ _ => [.cmp, .cpx, .cpy]
  | .bitTest _ => [.bit]
  | .shiftA _ | .shiftMem _ _ => [.asl, .lsr, .rol, .ror]
  | .jump _ => [.bcc, .bcs, .beq, .bne, .bmi, .bpl, .bvc, .bvs, .jmp]
  | .call _ _ => [.jsr]
  | .returnFromCall => [.rts]
  | .trapEntry => [.brk]
  | .trapReturn => [.rti]
  | .push _ => [.pha, .php]
  | .pullA => [.pla]
  | .pullP => [.plp]
  | .writeFlag .C _ => [.clc, .sec]
  | .writeFlag .I _ => [.cli, .sei]
  | .writeFlag .D _ => [.cld, .sed]
  | .writeFlag .V _ => [.clv]
  | .writeFlag .Z _ | .writeFlag .N _ => []
  | .setSP _ => [.txs]

theorem shiftEffect_tags (f : Byte → ShiftResult) (op : Operand) (s : State) :
    (shiftEffect f op s).tags = [.asl, .lsr, .rol, .ror] := by
  unfold shiftEffect
  split <;> rfl

theorem effectOf_tag (i : Instr) (s : State) : i.tag ∈ (effectOf i s).tags := by
  cases i
  case asl | lsr | rol | ror => simp [effectOf, shiftEffect_tags, Instr.tag]
  all_goals simp [effectOf, branchEffect, Effect.tags, Instr.tag]

/-- Only a shift without a memory operand has the effect on A (R190). -/
theorem noMem_of_shiftA {i : Instr} {s : State} {r : ShiftResult} (h : effectOf i s = .shiftA r) :
    noMem i.operand = true := by
  cases i
  case asl | lsr | rol | ror =>
    simp only [effectOf, shiftEffect] at h
    split at h
    · assumption
    · cases h
  all_goals cases h

end Sys2Proof.Machine
end

section
/-! SUPPORT. What an effect leaves unchanged: the mark, the form of memory, the flags, PC and the registers; which instructions
change them; and before that the facts about status bytes and stack addresses that this needs. -/

namespace Sys2Proof.Machine

/-! Status bytes and the stack page -/

/-- Writing one flag in two bytes that agree outside a list keeps them so. -/
theorem SameFlagsOutside.setFlag {l : List Flag} {p q : Byte} (h : SameFlagsOutside l p q) (f : Flag) (b : Bool) :
    SameFlagsOutside l (setFlag p f b) (setFlag q f b) := by
  obtain ⟨hflags, hforced⟩ := h
  exact ⟨fun g hg => by simp [hflags g hg], by simp [hforced]⟩

theorem SameFlagsOutside.setZN {l : List Flag} {p q : Byte} (h : SameFlagsOutside l p q) (r : Byte) :
    SameFlagsOutside l (setZN p r) (setZN q r) :=
  (h.setFlag _ _).setFlag _ _

/-- Pulling one byte over two that agree outside a list keeps them so. -/
theorem SameFlagsOutside.statusPulled {l : List Flag} {p q : Byte} (h : SameFlagsOutside l p q) (v : Byte) :
    SameFlagsOutside l (statusPulled p v) (statusPulled q v) :=
  ⟨fun g _ => by simp, by simp [h.2]⟩

/-- The mask F3 of a status byte drops I and D and keeps every other bit. -/
theorem getFlag_masked (p : Byte) (g : Flag) : getFlag (p &&& 0xF3#8) g = (getFlag p g && decide (g ∉ [Flag.I, .D])) := by
  cases g <;> simp [getFlag, Flag.pos]

theorem masked_forced (p : Byte) : p &&& 0xF3#8 &&& 0x30#8 = p &&& 0x30#8 := by rw [BitVec.and_assoc]; rfl

/-- Two status bytes are equal under the mask F3 when they agree but for I and D. -/
theorem sameFlagsOutside_iff_masked {p q : Byte} : SameFlagsOutside [.I, .D] p q ↔ q &&& 0xF3#8 = p &&& 0xF3#8 := by
  constructor
  · rintro ⟨hflags, hforced⟩
    refine status_ext (fun g => ?_) (by rw [masked_forced, masked_forced, hforced])
    by_cases hg : g ∈ [Flag.I, .D]
    · simp [getFlag_masked, hg]
    · rw [getFlag_masked, getFlag_masked, hflags g hg]
  · intro h
    refine ⟨fun g hg => ?_, by rw [← masked_forced, h, masked_forced]⟩
    have := congrArg (getFlag · g) h
    simpa [getFlag_masked, hg] using this

/-- The masks of a status push and pull, bit by bit (R27). -/
theorem statusMasks_getLsbD :
    ∀ k < 8, (0x30#8).getLsbD k = decide (k = 4 ∨ k = 5) ∧ (0xCF#8).getLsbD k = !decide (k = 4 ∨ k = 5) := by decide

/-- A byte outside the stack page is at no stack address (R23). -/
theorem ne_stackAddr_of_outside {a : Word} (h : a.toNat < 0x100 ∨ 0x1FF < a.toNat) (sp : Byte) : a ≠ stackAddr sp := by
  rintro rfl
  have := stackAddr_range sp
  omega

/-- The instructions that push. -/
theorem pushing_instr {i : Instr} (h : i.tag ∈ ([.pha, .php, .jsr, .brk] : List Tag)) :
    i = .pha ∨ i = .php ∨ (∃ addr, i = .jsr addr) ∨ i = .brk := by
  cases i <;> simp_all [Instr.tag]

/-! The frame of an effect -/

variable (e : Effect) (s : State)

/-- R31: no effect changes a mark that is set. -/
theorem Effect.apply_unimpl_of_marked {m : Tag × Byte} (h : s.unimpl = some m) : (e.apply s).unimpl = some m := by
  cases e
  case mark i => simp [Effect.apply, h]
  all_goals exact h

/-- Every effect keeps memory in canonical form. -/
theorem Effect.apply_mem_wf (h : s.mem.wf = true) : (e.apply s).mem.wf = true := by
  cases e
  case store a v | storeZN a v => exact State.wf_write a v h
  case shiftMem a r => exact State.wf_write a r.value h
  case call ret target => exact State.push16_mem_wf s ret h
  case push v => exact State.push_mem_wf s v h
  case trapEntry => exact State.trapEntry_mem_wf s h
  all_goals exact h

/-- The flags an effect may write. -/
def Effect.flags : Effect → List Flag
  | .loadA _ | .loadX _ | .loadY _ | .storeZN _ _ | .pullA => [.Z, .N]
  | .alu _ => [.C, .Z, .V, .N]
  | .compare _ _ | .shiftA _ | .shiftMem _ _ => [.C, .Z, .N]
  | .bitTest _ => [.Z, .V, .N]
  | .trapEntry => [.I]
  | .trapReturn | .pullP => [.C, .Z, .I, .D, .V, .N]
  | .writeFlag f _ => [f]
  | .mark _ | .keep | .store _ _ | .jump _ | .call _ _ | .returnFromCall | .push _ | .setSP _ => []

/-- R25, R26: an effect writes its flags at most, and never bits 4 and 5. -/
theorem Effect.apply_flags : SameFlagsOutside e.flags s.p (e.apply s).p := by
  cases e
  case trapReturn | pullP => exact ⟨fun g hg => absurd (by cases g <;> simp [Effect.flags]) hg, statusPulled_forced _ _⟩
  all_goals simp +contextual [SameFlagsOutside, Effect.flags, Effect.apply, withAlu_eq, State.afterPull_eq, State.afterPull16_eq]

/-- The tags of the instructions that may write a flag (R25). -/
def flagWriters : Flag → List Tag
  | .C => [.adc, .sbc, .cmp, .cpx, .cpy, .asl, .lsr, .rol, .ror, .clc, .sec, .plp, .rti]
  | .Z | .N => [.lda, .ldx, .ldy, .adc, .sbc, .cmp, .cpx, .cpy, .and, .ora, .eor, .bit, .asl, .lsr, .rol, .ror, .inc, .dec,
      .inx, .dex, .iny, .dey, .pla, .tax, .tay, .tsx, .txa, .tya, .plp, .rti]
  | .I => [.sei, .cli, .brk, .plp, .rti]
  | .D => [.sed, .cld, .plp, .rti]
  | .V => [.adc, .sbc, .bit, .clv, .plp, .rti]

/-- An effect that may write a flag belongs to writers of that flag alone. -/
theorem Effect.tags_of_flags : ∀ f ∈ e.flags, ∀ t ∈ e.tags, t ∈ flagWriters f := by
  cases e
  case writeFlag f b => cases f <;> simp [Effect.flags, Effect.tags, flagWriters]
  all_goals simp [Effect.flags, Effect.tags, flagWriters]

/-- R25: an instruction that is no writer of a flag leaves it. -/
theorem getFlag_of_not_writer (i : Instr) {f : Flag} (hi : i.tag ∉ flagWriters f) :
    getFlag ((effectOf i s).apply s).p f = getFlag s.p f :=
  ((effectOf i s).apply_flags s).1 f fun hf => hi (Effect.tags_of_flags _ f hf _ (effectOf_tag i s))

section
variable {e s} {t : Tag} (ht : t ∈ e.tags)
include ht

/-- R28: only a control transfer changes PC after the fetch. -/
theorem Effect.apply_pc_of_no_transfer
    (hi : t ∉ ([.bcc, .bcs, .beq, .bne, .bmi, .bpl, .bvc, .bvs, .jmp, .jsr, .rts, .brk, .rti] : List Tag)) :
    (e.apply s).pc = s.pc := by
  cases e
  case jump | call | returnFromCall | trapEntry | trapReturn => simp_all [Effect.tags]
  all_goals rfl

/-- R21; the shifts of A are left to the caller. -/
theorem Effect.apply_a_of_not_writer (hi : t ∉ ([.lda, .pla, .adc, .sbc, .and, .ora, .eor, .txa, .tya] : List Tag))
    (hshift : ∀ r, e ≠ .shiftA r) : (e.apply s).a = s.a := by
  cases e
  case shiftA r => exact absurd rfl (hshift r)
  case loadA | alu | pullA => simp_all [Effect.tags]
  all_goals rfl

/-- R22. -/
theorem Effect.apply_x_of_not_writer (hi : t ∉ ([.ldx, .tax, .tsx, .inx, .dex] : List Tag)) : (e.apply s).x = s.x := by
  cases e
  case loadX v => exact absurd ht hi
  all_goals rfl

/-- R22. -/
theorem Effect.apply_y_of_not_writer (hi : t ∉ ([.ldy, .tay, .iny, .dey] : List Tag)) : (e.apply s).y = s.y := by
  cases e
  case loadY v => exact absurd ht hi
  all_goals rfl

/-- R23. -/
theorem Effect.apply_sp_of_not_writer
    (hi : t ∉ ([.txs, .pha, .php, .pla, .plp, .jsr, .rts, .brk, .rti] : List Tag)) : (e.apply s).sp = s.sp := by
  cases e
  case setSP | push | pullA | pullP | call | returnFromCall | trapEntry | trapReturn => simp_all [Effect.tags]
  all_goals rfl

end

/-- R26: every effect keeps the invariant. -/
theorem Effect.apply_inv (h : s.Inv) : (e.apply s).Inv :=
  ⟨e.apply_mem_wf s h.memory, (e.apply_flags s).2.trans h.forced⟩

theorem State.Inv.enter {s : State} (h : s.Inv) : s.enter.Inv := ⟨h.memory, h.forced⟩

theorem State.Inv.tick {s : State} (h : s.Inv) (cycles : Nat) : (s.tick cycles).Inv := ⟨h.memory, h.forced⟩

end Sys2Proof.Machine
end

section
/-! SUPPORT. The effect of an instruction under another I and D: it is the same, but for a pushed status. -/

namespace Sys2Proof.Machine

variable {s : State} {q : Byte}

theorem eq_php_of_tag {i : Instr} (h : i.tag = .php) : i = .php := by
  cases i
  case php => rfl
  all_goals cases h

@[simp] theorem branchEffect_withP (cond : Bool) (off : Byte) :
    branchEffect cond off (s.withP q) = branchEffect cond off s := rfl

@[simp] theorem shiftEffect_withP (f : Byte → ShiftResult) (op : Operand) :
    shiftEffect f op (s.withP q) = shiftEffect f op s := by simp [shiftEffect]

/-- R166, R304: only PHP's effect depends on I or D. -/
theorem effectOf_withP {i : Instr} (h : SameFlagsOutside [.I, .D] s.p q) (hi : i.tag ≠ .php) :
    effectOf i (s.withP q) = effectOf i s := by
  have hC : (s.withP q).flag .C = s.flag .C := h.1 .C (by decide)
  have hZ : (s.withP q).flag .Z = s.flag .Z := h.1 .Z (by decide)
  have hV : (s.withP q).flag .V = s.flag .V := h.1 .V (by decide)
  have hN : (s.withP q).flag .N = s.flag .N := h.1 .N (by decide)
  cases i
  case php => exact absurd rfl hi
  all_goals simp [effectOf, hC, hZ, hV, hN]

/-- An effect that does not push the status does the same under another P, but for P. -/
theorem Effect.apply_withP {e : Effect} (he : e ≠ .trapEntry) :
    e.apply (s.withP q) = (e.apply s).withP (e.apply (s.withP q)).p := by
  cases e
  case trapEntry => exact absurd rfl he
  all_goals rfl

/-- The status bytes after an effect agree but for I and D when those before it do. -/
theorem Effect.apply_withP_flags (e : Effect) (h : SameFlagsOutside [.I, .D] s.p q) :
    SameFlagsOutside [.I, .D] (e.apply s).p (e.apply (s.withP q)).p := by
  cases e
  case loadA | loadX | loadY | storeZN | pullA => exact h.setZN _
  case alu => exact ((h.setFlag _ _).setFlag _ _).setZN _
  case compare | shiftA | shiftMem => exact (h.setFlag _ _).setZN _
  case bitTest => exact ((h.setFlag _ _).setFlag _ _).setFlag _ _
  case trapEntry | writeFlag => exact h.setFlag _ _
  case trapReturn | pullP => exact h.statusPulled _
  all_goals exact h

/-- Two states that differ at most in I and D and in the bytes at the listed addresses. -/
structure State.SameButForID (l : List Word) (t u : State) : Prop where
  pc     : u.pc = t.pc
  sp     : u.sp = t.sp
  a      : u.a = t.a
  x      : u.x = t.x
  y      : u.y = t.y
  flags  : SameFlagsOutside [.I, .D] t.p u.p
  clock  : u.clock = t.clock
  unimpl : u.unimpl = t.unimpl
  memory : SameMemoryOutside l t u

/-- Where an instruction of the tag pushes the status (R223, R242). -/
def statusPushAddresses (t : Tag) (s : State) : List Word :=
  match t with
  | .php => [stackAddr s.sp]
  | .brk => [stackAddr (s.sp - 2#8)]
  | _ => []

theorem notMem_statusPushAddresses {t : Tag} {a : Word} (hphp : t = .php → a ≠ stackAddr s.sp)
    (hbrk : t = .brk → a ≠ stackAddr (s.sp - 2#8)) : a ∉ statusPushAddresses t s := by
  unfold statusPushAddresses
  split
  · simpa using hphp rfl
  · simpa using hbrk rfl
  · exact List.not_mem_nil

/-- BRK from two states that differ in I and D. -/
theorem State.trapEntry_sameButForID (h : SameFlagsOutside [.I, .D] s.p q) :
    State.SameButForID [stackAddr (s.sp - 2#8)] s.trapEntry (s.withP q).trapEntry where
  pc := by rw [State.trapEntry_pc, State.trapEntry_pc]; rfl
  sp := rfl
  a := rfl
  x := rfl
  y := rfl
  flags := h.setFlag .I true
  clock := rfl
  unimpl := rfl
  memory a ha := by
    rw [List.mem_singleton] at ha
    rw [State.trapEntry_read, State.trapEntry_read]
    exact (if_neg ha).trans (if_neg ha).symm

/-- PHP from two states that differ in I and D. -/
theorem State.pushStatus_sameButForID (h : SameFlagsOutside [.I, .D] s.p q) :
    State.SameButForID [stackAddr s.sp] (s.push (statusPushed s.p)) ((s.withP q).push (statusPushed q)) where
  pc := rfl
  sp := rfl
  a := rfl
  x := rfl
  y := rfl
  flags := h
  clock := rfl
  unimpl := rfl
  memory a ha := by
    rw [List.mem_singleton] at ha
    simp [State.push_read, ha]

/-- Any other effect from two states that differ in I and D. -/
theorem Effect.apply_sameButForID {e : Effect} (he : e ≠ .trapEntry) (h : SameFlagsOutside [.I, .D] s.p q) (l : List Word) :
    State.SameButForID l (e.apply s) (e.apply (s.withP q)) := by
  have hflags := e.apply_withP_flags h
  rw [Effect.apply_withP he] at hflags ⊢
  exact ⟨rfl, rfl, rfl, rfl, rfl, hflags, rfl, rfl, fun _ _ => rfl⟩

/-- R166, R304: execution from two states that differ in I and D. -/
theorem effectOf_sameButForID (i : Instr) (h : SameFlagsOutside [.I, .D] s.p q) :
    State.SameButForID (statusPushAddresses i.tag s) ((effectOf i s).apply s)
      ((effectOf i (s.withP q)).apply (s.withP q)) := by
  by_cases hphp : i = .php
  · subst hphp
    exact State.pushStatus_sameButForID h
  · rw [effectOf_withP h (mt eq_php_of_tag hphp)]
    by_cases hbrk : effectOf i s = .trapEntry
    · have htag := effectOf_tag i s
      rw [hbrk, Effect.tags, List.mem_singleton] at htag
      rw [hbrk, htag]
      exact State.trapEntry_sameButForID h
    · exact Effect.apply_sameButForID hbrk h _

/-- The fetch reads no flag, so the step from another P runs the same instruction (R110). -/
theorem step_withP (s : State) (q : Byte) :
    step (s.withP q) =
      .next (((effectOf s.fetchInstr (s.enter.withP q)).apply (s.enter.withP q)).tick s.fetchCycles) :=
  step_eq (s.withP q)

end Sys2Proof.Machine
end

section
/-! The statements about the state, 10_state.md: each settled from the facts about effects. -/

namespace Sys2Proof.Proofs

open Sys2Proof Sys2Proof.Machine

/-- Settles O4: the fetch, every effect and the clock keep the invariant. -/
theorem stepKeepsTheInvariant : Obligations.StepKeepsTheInvariant := by
  unfold Obligations.StepKeepsTheInvariant
  intro s t hs ht
  rw [step_eq, Host.Outcome.next.injEq] at ht
  rw [← ht]
  exact ((effectOf s.fetchInstr s.enter).apply_inv s.enter hs.enter).tick _

/-- Settles O2: the table of R24 is `Flag.pos`, and the masks set or keep bits 4 and 5. -/
theorem flagAccessorsTouchOneBit : Obligations.FlagAccessorsTouchOneBit := by
  unfold Obligations.FlagAccessorsTouchOneBit
  intro p v b
  refine ⟨fun e he => ?_, fun k hk => ?_, fun k hk => ?_⟩
  · have hpos : e.1.pos = e.2 := by revert e; decide
    rw [← hpos]
    exact ⟨rfl, by simp [getFlag], rfl, fun k hk => getLsbD_setFlag p e.1 b k hk⟩
  · obtain ⟨hset, -⟩ := statusMasks_getLsbD k hk
    by_cases h : k = 4 ∨ k = 5 <;> simp [statusPushed, hset, h]
  · obtain ⟨hkept, htaken⟩ := statusMasks_getLsbD k hk
    by_cases h : k = 4 ∨ k = 5 <;> simp [statusPulled, hkept, htaken, h]

/-- Settles O12: no effect of such an instruction changes the PC of the fetch. -/
theorem stepMovesPastTheInstruction : Obligations.StepMovesPastTheInstruction := by
  unfold Obligations.StepMovesPastTheInstruction
  intro s hi
  refine ⟨_, step_eq s, ?_⟩
  rw [← State.fetchInstr_tag] at hi
  rw [State.tick_pc, Effect.apply_pc_of_no_transfer (effectOf_tag s.fetchInstr s.enter) hi, State.enter_pc]
  simp

/-- Settles O13: no effect changes a mark that is set. -/
theorem markKeepsTheFirst : Obligations.MarkKeepsTheFirst := by
  unfold Obligations.MarkKeepsTheFirst
  intro s m h
  exact ⟨_, step_eq s, (effectOf s.fetchInstr s.enter).apply_unimpl_of_marked s.enter h⟩

/-- Settles O24: each store is a push, and each push is at a stack address. -/
theorem stackStoresStayInPageOne : Obligations.StackStoresStayInPageOne := by
  unfold Obligations.StackStoresStayInPageOne
  intro i s hi
  refine ⟨fun a ha => ?_, _, exec_eq i s, fun a ha => ?_⟩
  · have hstack : ∃ sp, a = stackAddr sp := by
      obtain rfl | rfl | ⟨addr, rfl⟩ | rfl := pushing_instr hi <;>
        simp only [executeAccesses, storedAddresses, List.mem_cons, List.not_mem_nil, or_false] at ha
      · exact ⟨_, ha⟩
      · exact ⟨_, ha⟩
      · exact ha.elim (⟨_, ·⟩) (⟨_, ·⟩)
      · exact ha.elim (⟨_, ·⟩) (·.elim (⟨_, ·⟩) (⟨_, ·⟩))
    obtain ⟨sp, rfl⟩ := hstack
    exact stackAddr_range sp
  · have hne := ne_stackAddr_of_outside ha
    obtain rfl | rfl | ⟨addr, rfl⟩ | rfl := pushing_instr hi <;>
      simp [effectOf, Effect.apply, State.push_read, State.push16_read, State.trapEntry_read, hne]

/-- Settles O26: each register is written by the effects of its instructions, and A by a shift without a memory operand. -/
theorem registersAreWrittenByTheirInstructionsOnly : Obligations.RegistersAreWrittenByTheirInstructionsOnly := by
  unfold Obligations.RegistersAreWrittenByTheirInstructionsOnly
  intro i s t h
  rw [exec_eq, Host.Outcome.next.injEq] at h
  have htag := effectOf_tag i s
  rw [← h]
  refine ⟨fun hi hshift => Effect.apply_a_of_not_writer htag hi fun r hr => ?_, Effect.apply_x_of_not_writer htag,
    Effect.apply_y_of_not_writer htag, Effect.apply_sp_of_not_writer htag⟩
  rw [hr] at htag
  exact hshift ⟨htag, noMem_of_shiftA hr⟩

/-- Settles O27: each flag is written by the effects of its instructions, and bits 4 and 5 by none. -/
theorem flagsAreWrittenByTheirInstructionsOnly : Obligations.FlagsAreWrittenByTheirInstructionsOnly := by
  unfold Obligations.FlagsAreWrittenByTheirInstructionsOnly
  intro i s t h
  rw [exec_eq, Host.Outcome.next.injEq] at h
  rw [← h]
  exact ⟨getFlag_of_not_writer s i (f := .C),
    fun hi => ⟨getFlag_of_not_writer s i (f := .Z) hi, getFlag_of_not_writer s i (f := .N) hi⟩,
    getFlag_of_not_writer s i (f := .I), getFlag_of_not_writer s i (f := .D), getFlag_of_not_writer s i (f := .V),
    ((effectOf i s).apply_flags s).2⟩

/-- Settles O28: the fetch reads no flag, and only a pushed status carries I and D out of P. -/
theorem interruptAndDecimalFlagsAreNotRead : Obligations.InterruptAndDecimalFlagsAreNotRead := by
  unfold Obligations.InterruptAndDecimalFlagsAreNotRead
  intro s q hq
  have h := effectOf_sameButForID (s := s.enter) s.fetchInstr (sameFlagsOutside_iff_masked.2 hq)
  refine ⟨_, _, step_eq s, step_withP s q, h.pc, h.sp, h.a, h.x, h.y, sameFlagsOutside_iff_masked.1 h.flags,
    congrArg (· + s.fetchCycles) h.clock, h.unimpl, fun a hphp hbrk => h.memory a ?_⟩
  rw [State.fetchInstr_tag]
  exact notMem_statusPushAddresses hphp hbrk

/-- Settles O3: both start with the status of reset, which has bits 4 and 5 set. -/
theorem createdCoreMeetsTheInvariant : Obligations.CreatedCoreMeetsTheInvariant := by
  unfold Obligations.CreatedCoreMeetsTheInvariant
  have hforced : State.reset.p &&& 0x30#8 = 0x30#8 := by decide
  exact ⟨⟨State.reset_mem_wf, hforced⟩, fun m hm => ⟨hm, hforced⟩⟩

end Sys2Proof.Proofs
end

section
/-! SUPPORT. Memory after an instruction: the stores of its access list made in order, and nothing else. -/

namespace Sys2Proof.Machine

/-- R52: a byte that a list of accesses does not store to stays. -/
theorem replay_read_of_not_stored {l : List Access} {a : Word} (m : Memory) (ha : a ∉ storedAddresses l) :
    (replay l m).read a.toNat = m.read a.toNat := by
  induction l generalizing m with
  | nil => rfl
  | cons c l ih =>
    cases c with
    | read b => exact ih m ha
    | write b v =>
      obtain ⟨hne, hl⟩ := not_or.1 (mt List.mem_cons.2 ha)
      rw [replay, ih _ hl, Memory.read_write, if_neg (mt BitVec.eq_of_toNat_eq hne)]

/-- R52: a byte that a list of accesses stores to is the list's, whatever memory was before. -/
theorem replay_read_of_stored {l : List Access} {a : Word} (m n : Memory) (ha : a ∈ storedAddresses l) :
    (replay l n).read a.toNat = (replay l m).read a.toNat := by
  induction l generalizing m n with
  | nil => cases ha
  | cons c l ih =>
    cases c with
    | read b => exact ih m n ha
    | write b v =>
      by_cases hl : a ∈ storedAddresses l
      · exact ih _ _ hl
      · obtain rfl : a = b := (List.mem_cons.1 ha).resolve_right hl
        simp [replay, replay_read_of_not_stored _ hl, Memory.read_write]

theorem shiftEffect_apply_mem (f : Byte → ShiftResult) (op : Operand) (s : State) :
    ((shiftEffect f op s).apply s).mem = replay (shiftAccesses f op s) s.mem := by
  unfold shiftEffect shiftAccesses
  split <;> rfl

/-- R57–R59: memory after an instruction is its access list replayed. -/
theorem effectOf_apply_mem (i : Instr) (s : State) :
    ((effectOf i s).apply s).mem = replay (executeAccesses i s) s.mem := by
  cases i
  case asl | lsr | rol | ror => exact shiftEffect_apply_mem _ _ s
  case brk =>
    simp only [executeAccesses, replay, ← sp_sub_two]
    rfl
  all_goals rfl

theorem effectOf_apply_read (i : Instr) (s : State) (a : Word) :
    ((effectOf i s).apply s).read a = (replay (executeAccesses i s) s.mem).read a.toNat :=
  congrArg (Memory.read · a.toNat) (effectOf_apply_mem i s)

end Sys2Proof.Machine
end

section
/-! SUPPORT. Two states that differ in memory alone, and agree at some addresses: the same instruction is fetched, its operand
resolves to the same address, and it has the same effect. -/

namespace Sys2Proof

/-- R80: an instruction has at most two operand bytes. -/
theorem Mode.operandBytes_le (m : Mode) : m.operandBytes ≤ 2 := by cases m <;> decide

namespace Machine

/-- Every byte at the listed addresses reads the same in both states. -/
abbrev SameMemoryAt (l : List Word) (s t : State) : Prop := ∀ a ∈ l, t.read a = s.read a

/-- Every byte of the instruction at the PC of `s` reads the same in both states. -/
abbrev SameInstructionBytes (s t : State) : Prop :=
  ∀ n < (lookup (s.read s.pc)).mode.length, t.read (s.pc + BitVec.ofNat 16 n) = s.read (s.pc + BitVec.ofNat 16 n)

/-- The state with another memory. -/
def State.withMem (s : State) (m : Memory) : State := { s with mem := m }

variable {s : State} {m : Memory}

@[simp] theorem State.withMem_pc : (s.withMem m).pc = s.pc := rfl
@[simp] theorem State.withMem_sp : (s.withMem m).sp = s.sp := rfl
@[simp] theorem State.withMem_a : (s.withMem m).a = s.a := rfl
@[simp] theorem State.withMem_x : (s.withMem m).x = s.x := rfl
@[simp] theorem State.withMem_y : (s.withMem m).y = s.y := rfl
@[simp] theorem State.withMem_p : (s.withMem m).p = s.p := rfl
@[simp] theorem State.withMem_clock : (s.withMem m).clock = s.clock := rfl
@[simp] theorem State.withMem_unimpl : (s.withMem m).unimpl = s.unimpl := rfl
@[simp] theorem State.withMem_mem : (s.withMem m).mem = m := rfl
@[simp] theorem State.withMem_flag (f : Flag) : (s.withMem m).flag f = s.flag f := rfl

/-! The fetch -/

section
variable (h : SameInstructionBytes s (s.withMem m))
include h

theorem State.opcode_withMem : (s.withMem m).read s.pc = s.read s.pc := by
  simpa using h 0 (by simp [Mode.length])

/-- The operand bytes that the instruction has are the same (R80). -/
theorem State.operandBytes_withMem :
    (lookup (s.read s.pc)).mode.operandBytes = 0 ∨
    (lookup (s.read s.pc)).mode.operandBytes = 1 ∧ (s.withMem m).read (s.pc + 1#16) = s.read (s.pc + 1#16) ∨
    (lookup (s.read s.pc)).mode.operandBytes = 2 ∧ (s.withMem m).read (s.pc + 1#16) = s.read (s.pc + 1#16) ∧
      (s.withMem m).read (s.pc + 2#16) = s.read (s.pc + 2#16) := by
  have hle := (lookup (s.read s.pc)).mode.operandBytes_le
  have h1 := h 1
  have h2 := h 2
  unfold Mode.length at h1 h2
  obtain hk | hk | hk : (lookup (s.read s.pc)).mode.operandBytes = 0 ∨ (lookup (s.read s.pc)).mode.operandBytes = 1 ∨
    (lookup (s.read s.pc)).mode.operandBytes = 2 := by omega
  · exact .inl hk
  · exact .inr (.inl ⟨hk, h1 (by omega)⟩)
  · exact .inr (.inr ⟨hk, h1 (by omega), h2 (by omega)⟩)

theorem State.fetchInstr_withMem : (s.withMem m).fetchInstr = s.fetchInstr := by
  obtain hk | ⟨hk, h1⟩ | ⟨hk, h1, h2⟩ := State.operandBytes_withMem h <;>
    simp [State.fetchInstr, State.opcode_withMem h, *]

theorem State.fetchCycles_withMem : (s.withMem m).fetchCycles = s.fetchCycles :=
  congrArg (fun b => (lookup b).cycles) (State.opcode_withMem h)

theorem State.enter_withMem : (s.withMem m).enter = s.enter.withMem m :=
  congrArg (fun b => (s.withMem m).withPC (s.pc + BitVec.ofNat 16 (lookup b).mode.length)) (State.opcode_withMem h)

theorem byteText_withMem : byteText (s.withMem m) = byteText s := by
  obtain hk | ⟨hk, h1⟩ | ⟨hk, h1, h2⟩ := State.operandBytes_withMem h <;> simp [byteText, State.opcode_withMem h, *]

theorem instructionAccesses_withMem : instructionAccesses (s.withMem m) = instructionAccesses s := by
  simp [instructionAccesses, State.opcode_withMem h]

end

/-! The resolver -/

/-- Where the pointer of an operand is read (R122–R124). -/
def pointerAddresses (op : Operand) (s : State) : List Word :=
  match op with
  | .indirect ptr => [ptr, indirectHigh Config.jmpIndirectPageWrap ptr]
  | .indexedIndirect b => [zext16 (b + s.x), zext16 (b + s.x + 1#8)]
  | .indirectIndexed b => [zext16 b, zext16 (b + 1#8)]
  | _ => []

theorem pointerAddresses_subset_resolverAccesses (op : Operand) (s : State) :
    pointerAddresses op s ⊆ readAddresses (resolverAccesses op s) := by
  cases op <;> simp [pointerAddresses, resolverAccesses, readAddresses]

theorem pointerAddresses_subset_templateAccesses (i : Instr) (s : State) :
    pointerAddresses i.operand s ⊆ readAddresses (templateAccesses i s) := by
  unfold templateAccesses
  cases i.operand <;> simp [pointerAddresses, readAddresses]

theorem State.zpRead16_withMem {p : Byte} (h : SameMemoryAt [zext16 p, zext16 (p + 1#8)] s (s.withMem m)) :
    (s.withMem m).zpRead16 p = s.zpRead16 p :=
  congrArg₂ word (h _ (by simp)) (h _ (by simp))

/-- The resolved address depends on the registers and the pointer alone. -/
theorem resolve_withMem {op : Operand} (h : SameMemoryAt (pointerAddresses op s) s (s.withMem m)) :
    resolve op (s.withMem m) = resolve op s := by
  cases op
  case indirect ptr => exact congrArg₂ word (h _ (by simp [pointerAddresses])) (h _ (by simp [pointerAddresses]))
  case indexedIndirect b => exact State.zpRead16_withMem h
  case indirectIndexed b => exact congrArg (· + zext16 s.y) (State.zpRead16_withMem h)
  all_goals rfl

/-- The operand byte depends on the resolved address and the byte there alone. -/
theorem operandByte_withMem {op : Operand} (hresolve : resolve op (s.withMem m) = resolve op s)
    (h : (s.withMem m).read (resolve op s) = s.read (resolve op s)) : operandByte op (s.withMem m) = operandByte op s := by
  cases op
  case immediate b => rfl
  all_goals
    unfold operandByte
    rw [hresolve, h]

/-! Execution -/

/-- A shift has the same effect and the same accesses where it reads the same byte. -/
theorem shiftEffect_withMem (f : Byte → ShiftResult) {op : Operand} (hresolve : resolve op (s.withMem m) = resolve op s)
    (h : SameMemoryAt (readAddresses (shiftAccesses f op s)) s (s.withMem m)) :
    shiftEffect f op (s.withMem m) = shiftEffect f op s ∧ shiftAccesses f op (s.withMem m) = shiftAccesses f op s := by
  unfold shiftEffect shiftAccesses at *
  cases hop : noMem op
  · simp only [hop] at h
    have hbyte := operandByte_withMem hresolve (h _ (List.mem_singleton_self _))
    simp [hresolve, hbyte]
  · simp

/-- The bytes that an effect itself reads: those it pulls, and the vector of BRK. -/
def Effect.reads (e : Effect) (s : State) : List Word :=
  match e with
  | .pullA | .pullP => [stackAddr (s.sp + 1#8)]
  | .returnFromCall => [stackAddr (s.sp + 1#8), stackAddr (s.sp + 2#8)]
  | .trapReturn => [stackAddr (s.sp + 1#8), stackAddr (s.sp + 2#8), stackAddr (s.sp + 3#8)]
  | .trapEntry => [Config.brkVector, Config.brkVector + 1#16]
  | _ => []

theorem effectOf_reads_subset (i : Instr) (s : State) : (effectOf i s).reads s ⊆ readAddresses (executeAccesses i s) := by
  cases i
  case asl | lsr | rol | ror =>
    simp only [effectOf, shiftEffect]
    split <;> exact List.nil_subset _
  case brk | rts | rti | pla | plp => exact List.Subset.refl _
  all_goals exact List.nil_subset _

/-- An effect that reads the same bytes does the same to the registers, the clock and the mark. -/
theorem Effect.apply_withMem {e : Effect} (h : SameMemoryAt (e.reads s) s (s.withMem m)) :
    e.apply (s.withMem m) = (e.apply s).withMem (e.apply (s.withMem m)).mem := by
  cases e
  case pullA | pullP =>
    simp only [Effect.apply, State.pulled_eq, State.withMem_sp]
    rw [h _ (by simp [Effect.reads])]
    rfl
  case returnFromCall =>
    simp only [Effect.apply, State.pulled16_eq, State.withMem_sp]
    rw [h _ (by simp [Effect.reads]), h _ (by simp [Effect.reads])]
    rfl
  case trapReturn =>
    simp only [Effect.apply, State.trapReturn_eq, State.withMem_sp]
    rw [h _ (by simp [Effect.reads]), h _ (by simp [Effect.reads]), h _ (by simp [Effect.reads])]
    rfl
  case trapEntry =>
    have hvector : (s.withMem m).read16 Config.brkVector = s.read16 Config.brkVector :=
      congrArg₂ word (h _ (by simp [Effect.reads])) (h _ (by simp [Effect.reads]))
    apply State.ext_fields <;> simp [Effect.apply, hvector]
  all_goals rfl

section
variable {i : Instr} (hresolver : SameMemoryAt (readAddresses (resolverAccesses i.operand s)) s (s.withMem m))
  (hexecute : SameMemoryAt (readAddresses (executeAccesses i s)) s (s.withMem m))
include hresolver hexecute

/-- R59: an instruction has the same effect and the same accesses where its listed reads give the same bytes. -/
theorem effectOf_withMem :
    effectOf i (s.withMem m) = effectOf i s ∧ executeAccesses i (s.withMem m) = executeAccesses i s := by
  have hresolve : resolve i.operand (s.withMem m) = resolve i.operand s :=
    resolve_withMem fun a ha => hresolver a (pointerAddresses_subset_resolverAccesses _ _ ha)
  have hbyte (hread : resolve i.operand s ∈ readAddresses (executeAccesses i s)) :
      operandByte i.operand (s.withMem m) = operandByte i.operand s := operandByte_withMem hresolve (hexecute _ hread)
  cases i
  case asl | lsr | rol | ror => exact shiftEffect_withMem _ hresolve hexecute
  case lda | ldx | ldy | adc | sbc | cmp | cpx | cpy | and | ora | eor | bit | inc | dec =>
    replace hbyte := hbyte (List.mem_singleton_self _)
    dsimp only [Instr.operand] at hresolve hbyte
    simp [effectOf, executeAccesses, hresolve, hbyte]
  case sta | stx | sty | jmp =>
    dsimp only [Instr.operand] at hresolve
    simp [effectOf, executeAccesses, hresolve]
  all_goals exact ⟨rfl, rfl⟩

/-- R59: it leaves the same registers, clock and mark, and its stores in the other memory. -/
theorem effectOf_apply_withMem :
    (effectOf i (s.withMem m)).apply (s.withMem m) = ((effectOf i s).apply s).withMem (replay (executeAccesses i s) m) := by
  obtain ⟨heffect, haccesses⟩ := effectOf_withMem hresolver hexecute
  have hmem := effectOf_apply_mem i (s.withMem m)
  rw [heffect, haccesses, State.withMem_mem] at hmem
  rw [heffect, Effect.apply_withMem fun a ha => hexecute a (effectOf_reads_subset i s ha), hmem]

end

end Machine

end Sys2Proof
end

section
/-! SUPPORT. The listed reads of a step and of the trace formatter are all their reads, and both lists have every byte of the
instruction. -/

namespace Sys2Proof.Machine

/-! The step -/

/-- The tags whose instructions read their operand byte and store nothing. -/
def operandReaders : List Tag := [.lda, .ldx, .ldy, .adc, .sbc, .cmp, .cpx, .cpy, .and, .ora, .eor, .bit]

theorem resolve_mem_executeAccesses {i : Instr} (hi : i.tag ∈ operandReaders) (s : State) :
    resolve i.operand s ∈ readAddresses (executeAccesses i s) := by
  cases i
  case lda | ldx | ldy | adc | sbc | cmp | cpx | cpy | and | ora | eor | bit => exact List.mem_singleton_self _
  all_goals exact absurd hi (by simp [operandReaders, Instr.tag])

/-- R84: a byte in Immediate mode is of an undocumented tag or of one that reads its operand byte. -/
theorem lookup_immediate (b : Byte) :
    (lookup b).mode = .immediate → (lookup b).tag.undocumented = true ∨ (lookup b).tag ∈ operandReaders := by
  revert b; decide

/-- R58: the operand bytes, which end where PC is, are read. -/
theorem operandByte_mem_accesses {i : Instr} (s : State)
    (hi : i.mode = .immediate → i.tag.undocumented = true ∨ i.tag ∈ operandReaders) {k : Nat} (hpos : 0 < k)
    (hle : k ≤ i.mode.operandBytes) :
    s.pc - BitVec.ofNat 16 k ∈
      readAddresses (immediateAccesses i s ++ resolverAccesses i.operand s ++ executeAccesses i s) := by
  rw [readAddresses_append, readAddresses_append]
  unfold Instr.mode at hi hle
  cases hop : i.operand <;> simp only [hop, Operand.mode, Mode.operandBytes] at hi hle
  case implied | accumulator => omega
  case immediate b =>
    obtain rfl : k = 1 := by omega
    obtain hundocumented | hreader := hi trivial
    · simp [immediateAccesses, hop, hundocumented, readAddresses]
    · have hread := resolve_mem_executeAccesses hreader s
      rw [hop] at hread
      exact List.mem_append_right _ hread
  case absolute w | absoluteX w | absoluteY w | indirect w =>
    obtain rfl | rfl : k = 1 ∨ k = 2 := by omega
    · simp [resolverAccesses, readAddresses]
    · simp [resolverAccesses, readAddresses]
  all_goals
    obtain rfl : k = 1 := by omega
    simp [resolverAccesses, readAddresses]

/-- R58: a step reads every byte of its instruction. -/
theorem instructionByte_mem_stepAccesses (s : State) {n : Nat} (hn : n < (lookup (s.read s.pc)).mode.length) :
    s.pc + BitVec.ofNat 16 n ∈ readAddresses (stepAccesses s) := by
  obtain rfl | hpos := Nat.eq_zero_or_pos n
  · simp [stepAccesses, readAddresses]
  · obtain ⟨k, hk⟩ := Nat.exists_eq_add_of_lt hn
    have haddress : s.pc + BitVec.ofNat 16 n = s.enter.pc - BitVec.ofNat 16 (k + 1) := by
      rw [State.enter_pc, hk, Nat.add_assoc, BitVec.ofNat_add, ← BitVec.add_assoc, BitVec.add_sub_cancel]
    rw [haddress]
    refine List.mem_cons_of_mem _ (operandByte_mem_accesses s.enter ?_ k.succ_pos ?_)
    · simpa using lookup_immediate (s.read s.pc)
    · simp only [State.fetchInstr_mode, Mode.length] at hk ⊢
      omega

variable {s : State} {m : Memory}

/-- R59: the step's list and the step from a state with another memory. -/
theorem step_withMem (h : SameMemoryAt (readAddresses (stepAccesses s)) s (s.withMem m)) :
    stepAccesses (s.withMem m) = stepAccesses s ∧
    step (s.withMem m) =
      .next ((((effectOf s.fetchInstr s.enter).apply s.enter).withMem
        (replay (executeAccesses s.fetchInstr s.enter) m)).tick s.fetchCycles) := by
  have hbytes : SameInstructionBytes s (s.withMem m) := fun n hn => h _ (instructionByte_mem_stepAccesses s hn)
  simp only [stepAccesses, readAddresses, readAddresses_append, List.forall_mem_cons, List.forall_mem_append] at h
  obtain ⟨-, ⟨-, hresolver⟩, hexecute⟩ := h
  constructor
  · have haccesses := (effectOf_withMem (s := s.enter) hresolver hexecute).2
    simp only [stepAccesses, State.fetchInstr_withMem hbytes, State.enter_withMem hbytes, haccesses]
    rfl
  · have happly := effectOf_apply_withMem (s := s.enter) hresolver hexecute
    rw [step_eq, State.fetchInstr_withMem hbytes, State.enter_withMem hbytes, State.fetchCycles_withMem hbytes, happly]

/-! The trace formatter -/

/-- R323: the formatter reads every byte of the instruction. -/
theorem instructionByte_mem_instructionAccesses (s : State) {n : Nat} (hn : n < (lookup (s.read s.pc)).mode.length) :
    s.pc + BitVec.ofNat 16 n ∈ readAddresses (instructionAccesses s) := by
  have hle := (lookup (s.read s.pc)).mode.operandBytes_le
  unfold Mode.length at hn
  unfold instructionAccesses
  split
  next =>
    obtain rfl : n = 0 := by omega
    simp [readAddresses]
  next =>
    obtain rfl | rfl : n = 0 ∨ n = 1 := by omega
    · simp [readAddresses]
    · simp [readAddresses]
  next =>
    obtain rfl | rfl | rfl : n = 0 ∨ n = 1 ∨ n = 2 := by omega
    · simp [readAddresses]
    · simp [readAddresses]
    · simp [readAddresses]

/-- R322: the operand text and its list depend on the listed bytes alone. -/
theorem operandText_withMem {i : Instr} (h : SameMemoryAt (readAddresses (templateAccesses i s)) s (s.withMem m)) :
    operandText i (s.withMem m) = operandText i s ∧ templateAccesses i (s.withMem m) = templateAccesses i s := by
  have hpointer : SameMemoryAt (pointerAddresses i.operand s) s (s.withMem m) :=
    fun a ha => h a (pointerAddresses_subset_templateAccesses i s ha)
  unfold templateAccesses operandText at *
  cases hop : i.operand <;> simp only [hop] at h hpointer ⊢
  case implied | accumulator | immediate => simp
  case relative b => simp [resolve]
  case absolute w =>
    by_cases hjump : i.tag = .jmp ∨ i.tag = .jsr
    · simp [hjump]
    · simp only [hjump, if_false] at h ⊢
      have hread := h w (List.mem_singleton_self _)
      simp [resolve, hread]
  case indirect w => simp [resolve_withMem hpointer]
  case indexedIndirect b =>
    have hread := h (s.zpRead16 (b + s.x)) (by simp [readAddresses])
    have hword := State.zpRead16_withMem hpointer
    simp [resolve, hread, hword]
  case indirectIndexed b =>
    have hread := h (s.zpRead16 b + zext16 s.y) (by simp [readAddresses])
    have hword := State.zpRead16_withMem hpointer
    simp [resolve, hread, hword]
  all_goals
    have hread := h _ (List.mem_singleton_self _)
    simp [resolve, hread]

/-- R323: the line and its list depend on the listed bytes alone. -/
theorem traceText_withMem (h : SameMemoryAt (readAddresses (traceAccesses s)) s (s.withMem m)) :
    traceText (s.withMem m) = traceText s ∧ traceAccesses (s.withMem m) = traceAccesses s := by
  rw [traceAccesses, readAddresses_append] at h
  obtain ⟨hinstruction, htemplate⟩ := List.forall_mem_append.1 h
  have hbytes : SameInstructionBytes s (s.withMem m) :=
    fun n hn => hinstruction _ (instructionByte_mem_instructionAccesses s hn)
  obtain ⟨htext, haccesses⟩ := operandText_withMem (s := s.enter) htemplate
  constructor
  · simp [traceText, disassembly, registerText, State.fetchInstr_withMem hbytes, State.enter_withMem hbytes,
      State.opcode_withMem hbytes, byteText_withMem hbytes, htext]
  · simp [traceAccesses, State.fetchInstr_withMem hbytes, State.enter_withMem hbytes,
      instructionAccesses_withMem hbytes, haccesses]

@[simp] theorem instructionAccesses_store_nothing (s : State) : storedAddresses (instructionAccesses s) = [] := by
  unfold instructionAccesses
  split <;> rfl

@[simp] theorem templateAccesses_store_nothing (i : Instr) (s : State) : storedAddresses (templateAccesses i s) = [] := by
  unfold templateAccesses
  cases i.operand
  case absolute w => dsimp only; split <;> rfl
  all_goals rfl

/-- R323: the formatter stores nothing. -/
theorem traceAccesses_store_nothing (s : State) : storedAddresses (traceAccesses s) = [] := by simp [traceAccesses]

end Sys2Proof.Machine
end

section
/-! The statements about memory, 20_memory.md: each settled from the facts about the bus and about access lists. -/

namespace Sys2Proof.Proofs

open Sys2Proof Sys2Proof.Machine

/-- Settles O25: an effect makes the stores of the access list in order, and a replay changes the stored addresses alone. -/
theorem memoryIsTheReplayOfTheAccesses : Obligations.MemoryIsTheReplayOfTheAccesses := by
  unfold Obligations.MemoryIsTheReplayOfTheAccesses
  intro i s
  exact ⟨_, exec_eq i s, effectOf_apply_read i s,
    fun a ha => (effectOf_apply_read i s a).trans (replay_read_of_not_stored s.mem ha)⟩

/-- Settles O60: the second state is the first with another memory; what the fetch, the resolver, the effect and the templates
read of it is listed, and the stored bytes are those of the same list replayed on either memory. -/
theorem stepAndTraceDependOnTheirReadsOnly : Obligations.StepAndTraceDependOnTheirReadsOnly := by
  unfold Obligations.StepAndTraceDependOnTheirReadsOnly
  rintro s u ⟨hpc, hsp, ha, hx, hy, hp, hclock, hunimpl⟩
  obtain ⟨m, rfl⟩ : ∃ m, u = s.withMem m := ⟨u.mem, State.ext_fields _ _ hpc hsp ha hx hy hp hclock hunimpl rfl⟩
  refine ⟨fun h => ?_, fun h => ?_, fun n hn => instructionByte_mem_stepAccesses s hn⟩
  · obtain ⟨htext, haccesses⟩ := traceText_withMem h
    exact ⟨htext, haccesses, traceAccesses_store_nothing s⟩
  · obtain ⟨haccesses, hstep⟩ := step_withMem h
    refine ⟨haccesses, _, _, step_eq s, hstep, rfl, rfl, rfl, rfl, rfl, rfl, rfl, rfl, fun a ha => ?_⟩
    rw [stepAccesses_stores] at ha
    exact (replay_read_of_stored s.mem m ha).trans (effectOf_apply_read s.fetchInstr s.enter a).symm

/-- Settles O17: the one lemma about a read after a write; no register is a part of memory. -/
theorem busIsPlainMemory : Obligations.BusIsPlainMemory := by
  unfold Obligations.BusIsPlainMemory
  exact fun s a b v => ⟨State.read_write s a b v, rfl, rfl, rfl, rfl, rfl, rfl, rfl, rfl⟩

/-- Settles O18: a word is its high byte times 256 and its low byte, and a zero-page address wraps inside its byte. -/
theorem wordReadsAreLittleEndianAndWrap : Obligations.WordReadsAreLittleEndianAndWrap := by
  unfold Obligations.WordReadsAreLittleEndianAndWrap
  intro s a p
  have hzext (b : Byte) : zext16 b = BitVec.ofNat 16 b.toNat := (BitVec.ofNat_toNat 16 b).symm
  have hzp : s.zpRead16 p =
      word (s.read (BitVec.ofNat 16 ((p.toNat + 1) % 256))) (s.read (BitVec.ofNat 16 p.toNat)) := by
    rw [State.zpRead16, hzext, hzext, BitVec.toNat_add]
    rfl
  exact ⟨word_toNat _ _, rfl, by rw [hzp, word_toNat], rfl⟩

end Sys2Proof.Proofs
end

section
/-! SUPPORT. The encoded forms: an instruction is well-formed exactly when its opcode byte and mode stand in the list of its tag,
and exactly when some three bytes decode to it; its encoding is those of the three that its length takes. -/

namespace Sys2Proof

/-- R85: a tag has a mode when the byte that stands for the tag in this mode is listed. -/
theorem Tag.any_mode_iff_opcodeIn_listed (t : Tag) (m : Mode) :
    (t.opcodes.any fun e => e.2 == m) = true ↔ (t.opcodeIn m, m) ∈ t.opcodes := by
  constructor
  · intro h
    obtain ⟨e, he⟩ := Option.isSome_iff_exists.1 (List.find?_isSome.2 (List.any_eq_true.1 h))
    have hmode : e.2 = m := by simpa using List.find?_some he
    have hopcode : t.opcodeIn m = e.1 := by simp [Tag.opcodeIn, he]
    rw [hopcode, ← hmode]
    exact List.mem_of_find?_eq_some he
  · exact fun h => List.any_eq_true.2 ⟨_, h, beq_self_eq_true m⟩

/-- R85: the two checks of well-formedness as one entry of the tag's list. -/
theorem Instr.wellFormed_iff_listed (i : Instr) : i.WellFormed ↔ (i.opcode, i.mode) ∈ i.tag.opcodes := by
  rw [Instr.WellFormed, Instr.wellFormed, Bool.and_eq_true, Instr.modeLegal, Tag.any_mode_iff_opcodeIn_listed]
  unfold Instr.byteLegal Instr.opcode
  cases i.carriedByte with
  | none => simp
  | some opc =>
    rw [← Tag.any_mode_iff_opcodeIn_listed, List.contains_iff_mem, Option.getD_some]
    exact and_iff_right_of_imp fun h => List.any_eq_true.2 ⟨_, h, beq_self_eq_true _⟩

/-- R83: a listed opcode byte is mapped back to the tag and the mode. -/
theorem Instr.WellFormed.lookup_opcode {i : Instr} (h : i.WellFormed) :
    (lookup i.opcode).tag = i.tag ∧ (lookup i.opcode).mode = i.mode :=
  listed_lookup i.tag _ (i.wellFormed_iff_listed.1 h)

/-- R82: every operand is read from some two bytes. -/
theorem Operand.exists_operandOf (op : Operand) : ∃ b1 b2, operandOf op.mode b1 b2 = op := by
  cases op
  case implied | accumulator => exact ⟨0, 0, rfl⟩
  case absolute w | absoluteX w | absoluteY w | indirect w => exact ⟨lo w, hi w, congrArg _ (word_hi_lo w)⟩
  case immediate b | zeroPage b | relative b | zeroPageX b | zeroPageY b | indexedIndirect b | indirectIndexed b =>
    exact ⟨b, 0, rfl⟩

/-- R294: the byte EB is not the one that stands for SBC in a mode. -/
theorem opcodeIn_sbc_ne (m : Mode) : Tag.opcodeIn .sbc m ≠ 0xEB#8 := by cases m <;> decide

/-- An instruction is the one its tag, opcode byte and operand build. -/
theorem Instr.build_self (i : Instr) {b1 b2 : Byte} (h : operandOf i.mode b1 b2 = i.operand) :
    build i.tag i.opcode i.mode b1 b2 = i := by
  cases i
  case sbc op eb =>
    refine congrArg₂ Instr.sbc h ?_
    cases eb
    · exact beq_eq_false_iff_ne.2 (opcodeIn_sbc_ne op.mode)
    · rfl
  case bcc | bcs | beq | bne | bmi | bpl | bvc | bvs => exact congrArg _ (Operand.relative.inj h)
  case aac | arr | asr | atx | axs | xaa => exact congrArg _ (Operand.immediate.inj h)
  case jsr => exact congrArg _ (Operand.absolute.inj h)
  case lar | sxa | xas => exact congrArg _ (Operand.absoluteY.inj h)
  case sya => exact congrArg _ (Operand.absoluteX.inj h)
  case inx | dex | iny | dey | rts | brk | rti | pha | pla | php | plp | clc | sec | cld | sed | cli | sei | clv | tax | tay
    | tsx | txa | txs | tya | nop | kil => rfl
  all_goals exact congrArg _ h

/-- R83, R87: the well-formed instructions are those that three bytes decode to. -/
theorem Instr.wellFormed_iff_decoded (i : Instr) : i.WellFormed ↔ ∃ b0 b1 b2, decodeBytes b0 b1 b2 = i := by
  constructor
  · intro h
    obtain ⟨b1, b2, hoperand⟩ := i.operand.exists_operandOf
    obtain ⟨htag, hmode⟩ := h.lookup_opcode
    refine ⟨i.opcode, b1, b2, ?_⟩
    rw [decodeBytes, htag, hmode]
    exact i.build_self hoperand
  · rintro ⟨b0, b1, b2, rfl⟩
    rw [Instr.wellFormed_iff_listed, decodeBytes_opcode, decodeBytes_mode, decodeBytes_tag]
    exact lookup_listed b0

section
variable (b0 b1 b2 : Byte)

/-- R80, R82: the bytes of an operand are those it was read from, as many as its mode has. -/
theorem operandOf_bytes (m : Mode) : (operandOf m b1 b2).bytes = [b1, b2].take m.operandBytes := by
  cases m <;> simp [operandOf, Operand.bytes, Mode.operandBytes]

/-- R80, R83: a decoded instruction encodes to its opcode byte and the operand bytes of the byte's mode. -/
theorem encode_decodeBytes_eq_cons :
    encode (decodeBytes b0 b1 b2) = b0 :: [b1, b2].take (lookup b0).mode.operandBytes := by
  rw [encode, decodeBytes_opcode, decodeBytes_operand, operandOf_bytes]

/-- R80, R88: the encoding of a decoded instruction is the bytes it was decoded from, as many as its length. -/
theorem encode_decodeBytes :
    encode (decodeBytes b0 b1 b2) = [b0, b1, b2].take (decodeBytes b0 b1 b2).length := by
  rw [encode_decodeBytes_eq_cons, Instr.length, decodeBytes_mode, Mode.length, Nat.add_comm, List.take_succ_cons]

/-- R83, R88: the decoder takes the encoding of a decoded instruction and leaves what follows. -/
theorem decode_encode_decodeBytes (rest : List Byte) :
    decode (encode (decodeBytes b0 b1 b2) ++ rest) = .ok (decodeBytes b0 b1 b2, rest) := by
  have hle := (lookup b0).mode.operandBytes_le
  rw [encode_decodeBytes_eq_cons]
  obtain hk | hk | hk : (lookup b0).mode.operandBytes = 0 ∨ (lookup b0).mode.operandBytes = 1 ∨
    (lookup b0).mode.operandBytes = 2 := by omega
  · simp [decode, hk, decodeBytes_unused_both b0 b1 b2 hk]
  · simp [decode, hk, decodeBytes_unused_second b0 b1 b2 hk]
  · simp [decode, hk]

/-- R88: an instruction has at most three bytes. -/
theorem decodeBytes_length_le : (decodeBytes b0 b1 b2).length ≤ 3 := (Laws.EncodedLength.of_operand _).2.2

end

end Sys2Proof
end

section
/-! SUPPORT. The 256 bytes row by row, as the map of R84 lists them; and the clock under an effect. -/

namespace Sys2Proof

/-- The first `n * m` numbers, `m` in a row. -/
theorem range_mul_eq_flatMap (n m : Nat) :
    List.range (n * m) = (List.range n).flatMap fun r => (List.range m).map (r * m + ·) := by
  induction n with
  | zero => simp
  | succ n ih => rw [Nat.succ_mul, List.range_add, ih, List.range_succ, List.flatMap_append, List.flatMap_singleton]

/-- The 16 bytes with the high digit `r`. -/
def rowBytes (r : Nat) : List Byte := (List.range 16).map fun c => BitVec.ofNat 8 (r * 16 + c)

theorem bytes_eq_rows : (List.range 256).map (BitVec.ofNat 8) = (List.range 16).flatMap rowBytes := by
  simp only [range_mul_eq_flatMap 16 16, List.map_flatMap, List.map_map]
  rfl

namespace Machine

/-- R110: no effect changes the clock. -/
theorem Effect.apply_clock (e : Effect) (s : State) : (e.apply s).clock = s.clock := by cases e <;> rfl

end Machine

end Sys2Proof
end

section
/-! The statements about the encoding, 30_encoding.md: each settled from the facts about encoded forms, the map and the effects. -/

namespace Sys2Proof.Proofs

open Sys2Proof Sys2Proof.Machine

/-- Settles O5: a well-formed instruction is decoded from some three bytes, and its encoding is the first of them. -/
theorem decodeOfEncodeIsTheInstruction : Obligations.DecodeOfEncodeIsTheInstruction := by
  unfold Obligations.DecodeOfEncodeIsTheInstruction
  intro i rest h
  obtain ⟨b0, b1, b2, rfl⟩ := i.wellFormed_iff_decoded.1 h
  exact decode_encode_decodeBytes b0 b1 b2 rest

/-- Settles O6: three bytes are the encoding of what they decode to, and those the decoder leaves. -/
theorem encodeOfDecodeIsTheBytes : Obligations.EncodeOfDecodeIsTheBytes := by
  unfold Obligations.EncodeOfDecodeIsTheBytes
  intro b0 b1 b2 rest
  refine ⟨(Instr.wellFormed_iff_decoded _).2 ⟨b0, b1, b2, rfl⟩, encode_decodeBytes b0 b1 b2, ?_⟩
  have hsplit : b0 :: b1 :: b2 :: rest = encode (decodeBytes b0 b1 b2) ++
      (b0 :: b1 :: b2 :: rest).drop (decodeBytes b0 b1 b2).length := by
    rw [encode_decodeBytes, ← List.take_append_of_le_length (l₂ := rest) (decodeBytes_length_le b0 b1 b2)]
    exact (List.take_append_drop _ _).symm
  exact (congrArg decode hsplit).trans (decode_encode_decodeBytes b0 b1 b2 _)

/-- Settles O11: neither the fetch nor an effect changes the clock, and the step then adds the opcode's cost. -/
theorem stepAddsTheFixedCost : Obligations.StepAddsTheFixedCost := by
  unfold Obligations.StepAddsTheFixedCost
  intro s
  refine ⟨_, step_eq s, ?_⟩
  rw [State.tick_clock, Effect.apply_clock, State.enter_clock, State.fetchCycles]

/-- Settles O7: each word decodes by evaluation. -/
theorem tableWordsDecode : Obligations.TableWordsDecode := by
  unfold Obligations.TableWordsDecode
  decide

/-- Settles O8: the bytes are counted row by row, so that each row is a small evaluation. -/
theorem opcodeMapHasTheGivenCounts : Obligations.OpcodeMapHasTheGivenCounts := by
  unfold Obligations.OpcodeMapHasTheGivenCounts
  rw [bytes_eq_rows]
  simp only [List.filter_flatMap, List.length_flatMap]
  decide

end Sys2Proof.Proofs
end

section
/-! SUPPORT. The addresses of the resolver as numbers, the two settings of the page wrap, and the fetch as the decoder's answer on
the bytes at PC. -/

namespace Sys2Proof

/-- R9: inside a page, the next address has the next low byte and the same high byte. -/
theorem word_hi_lo_add_one {w : Word} (h : lo w ≠ 0xFF#8) : word (hi w) (lo w + 1#8) = w + 1#16 := by
  have hw : w.toNat = (hi w).toNat * 256 + (lo w).toNat := by rw [← word_toNat, word_hi_lo]
  have hlo : (lo w).toNat ≠ 255 := fun hlo => h (BitVec.eq_of_toNat_eq hlo)
  refine BitVec.eq_of_toNat_eq ?_
  rw [word_toNat, BitVec.toNat_add, BitVec.toNat_add, hw, BitVec.toNat_ofNat, BitVec.toNat_ofNat]
  omega

/-- R117: adding a sign-extended byte adds its signed value, modulo 65536. -/
theorem add_sext16_toNat (w : Word) (b : Byte) : ((w + sext16 b).toNat : Int) = (w.toNat + b.toInt) % 65536 := by
  have hsum : w + sext16 b = BitVec.ofInt 16 (w.toNat + b.toInt) := by
    rw [BitVec.ofInt_add, BitVec.ofInt_natCast, BitVec.ofNat_toNat, BitVec.setWidth_eq]
    rfl
  rw [hsum, BitVec.toNat_ofInt]
  omega

/-- R120, R121: adding a zero-extended byte adds its value, modulo 65536. -/
theorem add_zext16_toNat (w : Word) (b : Byte) : (w + zext16 b).toNat = (w.toNat + b.toNat) % 65536 := by
  rw [BitVec.toNat_add, zext16_toNat]

/-- R118, R119: an index added to a zero-page address wraps inside page 0. -/
theorem zext16_add_toNat (b c : Byte) : (zext16 (b + c)).toNat = (b.toNat + c.toNat) % 256 := by
  rw [zext16_toNat, BitVec.toNat_add]

/-- R82: an operand is Immediate when its mode is, and then it is the first byte after the opcode. -/
theorem operandOf_eq_immediate_iff {m : Mode} {b1 b2 b : Byte} :
    operandOf m b1 b2 = .immediate b ↔ m = .immediate ∧ b1 = b := by
  cases m <;> simp [operandOf]

namespace Machine

/-- R122: under the setting false the high byte is at the next address. -/
@[simp] theorem indirectHigh_false (ptr : Word) : indirectHigh false ptr = ptr + 1#16 := by simp [indirectHigh]

/-- R122: under the setting true the high byte is in the pointer's own page. -/
theorem indirectHigh_true (ptr : Word) : indirectHigh true ptr = word (hi ptr) (lo ptr + 1#8) := by
  by_cases h : lo ptr = 0xFF#8
  · simp [indirectHigh, h]
  · simp [indirectHigh, h, word_hi_lo_add_one h]

/-- R113: only Implied and Accumulator have no memory operand. -/
theorem noMem_eq_false {op : Operand} (himplied : op ≠ .implied) (haccumulator : op ≠ .accumulator) : noMem op = false := by
  cases op
  case implied | accumulator => contradiction
  all_goals rfl

/-- R114: outside Immediate mode the operand byte is read from memory. -/
theorem operandByte_eq_read {op : Operand} (h : op.mode ≠ .immediate) (s : State) : operandByte op s = s.read (resolve op s) := by
  cases op
  case immediate => contradiction
  all_goals rfl

theorem State.fetchInstr_operand (s : State) :
    s.fetchInstr.operand = operandOf (lookup (s.read s.pc)).mode (s.read (s.pc + 1#16)) (s.read (s.pc + 2#16)) := by
  rw [State.fetchInstr_eq, decodeBytes_operand]

/-- R111: execution starts with PC past the fetched instruction. -/
theorem State.enter_eq (s : State) : s.enter = { s with pc := s.pc + BitVec.ofNat 16 s.fetchInstr.length } := by
  rw [Instr.length, State.fetchInstr_mode]
  rfl

/-- R110: the instruction that the bytes at PC decode to is the fetched one. -/
theorem State.fetchInstr_of_decode {s : State} {i : Instr} {rest : List Byte}
    (h : decode [s.read s.pc, s.read (s.pc + 1#16), s.read (s.pc + 2#16)] = .ok (i, rest)) : s.fetchInstr = i := by
  obtain ⟨-, -, hdecode⟩ := Proofs.encodeOfDecodeIsTheBytes (s.read s.pc) (s.read (s.pc + 1#16)) (s.read (s.pc + 2#16)) []
  rw [hdecode, Except.ok.injEq, Prod.mk.injEq] at h
  exact (State.fetchInstr_eq s).trans h.1

end Machine

end Sys2Proof
end

section
/-! The statements about fetch and addressing, 40_fetch_and_addressing.md: each settled from the facts about the fetch, the resolver
and the stack. -/

namespace Sys2Proof.Proofs

open Sys2Proof Sys2Proof.Machine

/-- Settles O10: every instruction has an effect, and the outcome follows from the tag and opcode byte that the fetch leaves. -/
theorem stepAlwaysCompletes : Obligations.StepAlwaysCompletes := by
  unfold Obligations.StepAlwaysCompletes
  intro s
  refine ⟨⟨_, step_eq s⟩, ?_⟩
  rw [State.stepOutcome, outcomeOf, State.fetchInstr_tag, State.fetchInstr_opcode]

/-- Settles O19: each address is a sum of a word or byte and an index, a displacement or nothing. -/
theorem resolverComputesTheAddress : Obligations.ResolverComputesTheAddress := by
  unfold Obligations.ResolverComputesTheAddress
  intro s b w
  have himmediate : (s.pc - 1#16).toNat = (s.pc.toNat + 65535) % 65536 := by
    rw [BitVec.toNat_sub, Nat.add_comm]
    rfl
  exact ⟨rfl, rfl, fun _ => noMem_eq_false, himmediate, zext16_toNat b, rfl, add_sext16_toNat s.pc b,
    zext16_add_toNat b s.x, zext16_add_toNat b s.y, add_zext16_toNat w s.x, add_zext16_toNat w s.y, rfl,
    add_zext16_toNat (s.zpRead16 b) s.y⟩

/-- Settles O20: an Immediate instruction has two bytes, and the fetch took its operand from the second. -/
theorem operandIsTheByteAtTheAddress : Obligations.OperandIsTheByteAtTheAddress := by
  unfold Obligations.OperandIsTheByteAtTheAddress
  refine ⟨fun s b h => ?_, fun op s h => operandByte_eq_read h s⟩
  rw [State.fetchInstr_operand, operandOf_eq_immediate_iff] at h
  obtain ⟨hmode, hbyte⟩ := h
  have hpc : s.enter.pc = s.pc + 2#16 := by rw [State.enter_pc, hmode]; rfl
  refine ⟨?_, hbyte.symm⟩
  rw [resolve, hpc]
  bv_omega

/-- Settles O21: inside a page the next address is the one with the next low byte, so there the two settings agree. -/
theorem indirectPageWrapMattersAtPageEndOnly : Obligations.IndirectPageWrapMattersAtPageEndOnly := by
  unfold Obligations.IndirectPageWrapMattersAtPageEndOnly
  intro s ptr
  refine ⟨?_, ?_, fun h => ?_, rfl⟩
  · rw [indirectTarget, indirectHigh_false, State.read16]
  · rw [indirectTarget, indirectHigh_true]
  · rw [indirectTarget, indirectTarget, indirectHigh_true, indirectHigh_false, word_hi_lo_add_one h]

/-- Settles O23: the two pushes store at two different addresses, and the two pulls read them from the lower one up. -/
theorem pushedWordIsPulledBack : Obligations.PushedWordIsPulledBack := by
  unfold Obligations.PushedWordIsPulledBack
  intro s v
  have hlow : s.sp - 2#8 + 1#8 = s.sp - 1#8 := by bv_omega
  have hhigh : s.sp - 2#8 + 2#8 = s.sp := BitVec.sub_add_cancel _ _
  have hne : s.sp ≠ s.sp - 1#8 := by bv_omega
  have hreadHigh : (s.push16 v).read (stackAddr s.sp) = hi v := by simp [State.push16_read, hne]
  have hreadLow : (s.push16 v).read (stackAddr (s.sp - 1#8)) = lo v := by simp [State.push16_read]
  refine ⟨State.push16_sp s v, ?_, ?_, hreadHigh, hreadLow, fun a ha => ?_⟩
  · rw [State.pulled16_eq, State.push16_sp, hlow, hhigh, hreadHigh, hreadLow, word_hi_lo]
  · rw [State.afterPull16_eq, State.push16_sp, hhigh]
  · simp only [List.mem_cons, List.not_mem_nil, or_false, not_or] at ha
    rw [State.push16_read, if_neg ha.2, if_neg ha.1]

/-- Settles O9: the decoder's answer on the bytes at PC is the fetched instruction. -/
theorem stepRunsTheDecodedInstruction : Obligations.StepRunsTheDecodedInstruction := by
  unfold Obligations.StepRunsTheDecodedInstruction
  intro s i rest h
  obtain rfl := State.fetchInstr_of_decode h
  exact ⟨by rw [step, State.fetchCycles, State.enter_eq], rfl⟩

/-- Settles O22: a push is one store and one register write, a pull one register write. -/
theorem pushAndPullOneByte : Obligations.PushAndPullOneByte := by
  unfold Obligations.PushAndPullOneByte
  intro s v
  refine ⟨stackAddr_toNat s.sp, State.push_sp s v, ?_, fun a ha => ?_, rfl, rfl, rfl, rfl, rfl, ⟨rfl, rfl⟩,
    State.pulled_eq s, State.afterPull_eq s⟩
  · rw [State.push_read, if_pos rfl]
  · rw [State.push_read, if_neg (List.ne_of_not_mem_cons ha)]

end Sys2Proof.Proofs
end

section
/-! SUPPORT. The opcode bytes listed for a tag decode to its instruction; and Z and N after SetZN. -/

namespace Sys2Proof.Machine

/-- R83, R85: a byte listed for a tag decodes to the instruction that the tag builds in the listed mode. -/
theorem encodes_of_listed {t : Tag} {f : Operand → Instr} {l : List (Byte × Mode)} (hl : l ⊆ t.opcodes)
    (hbuild : ∀ e ∈ l, ∀ b1 b2, build t e.1 e.2 b1 b2 = f (operandOf e.2 b1 b2)) : ∀ e ∈ l, Encodes e.1 e.2 f := by
  intro e he b1 b2
  obtain ⟨htag, hmode⟩ := listed_lookup t e (hl he)
  rw [decodeBytes, htag, hmode]
  exact hbuild e he b1 b2

/-- R13: SetZN takes Z and N from its byte. -/
theorem znFrom_setZN (p r : Byte) : ZNFrom (setZN p r) r :=
  ⟨(getFlag_setZN p r .Z).trans (beq_eq_decide r 0#8), getFlag_setZN p r .N⟩

end Sys2Proof.Machine
end

section
/-! The statements about loads and stores, 41_load_store.md: each settled from the facts about the map, the effects and the bus. -/

namespace Sys2Proof.Proofs

open Sys2Proof Sys2Proof.Machine

/-- Settles O29: each load is the effect that writes its register and then sets Z and N from the same byte. -/
theorem loadsSetTheRegisterZAndN : Obligations.LoadsSetTheRegisterZAndN := by
  unfold Obligations.LoadsSetTheRegisterZAndN
  refine ⟨encodes_of_listed (t := .lda) (by decide) fun _ _ _ _ => rfl,
    encodes_of_listed (t := .ldx) (by decide) fun _ _ _ _ => rfl,
    encodes_of_listed (t := .ldy) (by decide) fun _ _ _ _ => rfl, fun op s => ?_⟩
  have hzn := znFrom_setZN s.p (operandByte op s)
  refine ⟨rfl, rfl, rfl, ⟨_, exec_eq (.lda op) s, rfl, hzn, ?_⟩, ⟨_, exec_eq (.ldx op) s, rfl, hzn, ?_⟩,
    ⟨_, exec_eq (.ldy op) s, rfl, hzn, ?_⟩⟩
  · exact ⟨(Effect.loadA _).apply_flags s, rfl, rfl, rfl, rfl, ⟨rfl, rfl⟩, fun _ => rfl⟩
  · exact ⟨(Effect.loadX _).apply_flags s, rfl, rfl, rfl, rfl, ⟨rfl, rfl⟩, fun _ => rfl⟩
  · exact ⟨(Effect.loadY _).apply_flags s, rfl, rfl, rfl, rfl, ⟨rfl, rfl⟩, fun _ => rfl⟩

/-- Settles O30: each store is one write of its register to the bus, and the bus is plain memory. -/
theorem storesWriteOneByte : Obligations.StoresWriteOneByte := by
  unfold Obligations.StoresWriteOneByte
  refine ⟨encodes_of_listed (t := .sta) (by decide) fun _ _ _ _ => rfl,
    encodes_of_listed (t := .stx) (by decide) fun _ _ _ _ => rfl,
    encodes_of_listed (t := .sty) (by decide) fun _ _ _ _ => rfl, fun op s e he => ?_⟩
  obtain ⟨houtcome, haccesses, hexec⟩ : outcomeOf e.1 = .ok ∧ executeAccesses e.1 s = [.write (resolve op s) e.2] ∧
      exec e.1 s = .next (s.write (resolve op s) e.2) := by
    simp only [List.mem_cons, List.not_mem_nil, or_false] at he
    obtain rfl | rfl | rfl := he <;> exact ⟨rfl, rfl, exec_eq _ s⟩
  refine ⟨houtcome, haccesses, _, hexec, ?_, fun a ha => ?_, rfl, rfl, rfl, rfl, rfl, rfl, rfl, rfl⟩
  · rw [State.read_write, if_pos rfl]
  · rw [State.read_write, if_neg (List.ne_of_not_mem_cons ha)]

end Sys2Proof.Proofs
end

section
/-! SUPPORT. The sum and the difference as numbers, and the flags after ADC, SBC or a compare. -/

namespace Sys2Proof.Machine

/-- The carry as the number that R160 and R161 add. -/
theorem carry_toNat (c : Bool) : c.toNat = if c then 1 else 0 := Bool.cond_eq_ite c 1 0

theorem carry_toInt (c : Bool) : (c.toNat : Int) = if c then 1 else 0 := by cases c <;> rfl

/-- Bit 7 of a byte is its sign (R165). -/
theorem getLsbD_seven_eq_neg (b : Byte) : b.getLsbD 7 = decide (b.toInt < 0) :=
  (BitVec.msb_eq_getLsbD_last b).symm.trans BitVec.msb_eq_toInt

/-- The complement of a byte is -1 less the byte, as signed numbers. -/
theorem toInt_not_byte (b : Byte) : (~~~b).toInt = -1 - b.toInt := by
  have hnot : (~~~b).toNat = 255 - b.toNat := BitVec.toNat_not
  rw [BitVec.toInt_eq_toNat_cond, BitVec.toInt_eq_toNat_cond, hnot]
  omega

section
variable (a m : Byte) (c : Bool)

/-- R160: A is the widened sum truncated. -/
theorem addWithCarry_value_toNat : (addWithCarry a m c).value.toNat = (a.toNat + m.toNat + c.toNat) % 256 :=
  BitVec.toNat_ofNat _ _

/-- R161: A is the widened difference truncated. -/
theorem subWithBorrow_value_toNat :
    ((subWithBorrow a m c).value.toNat : Int) = (a.toNat - m.toNat - (1 - c.toNat) : Int) % 256 := by
  rw [subWithBorrow, BitVec.toNat_ofInt]
  omega

/-- The sum is the same byte whether its operands are read as unsigned or as two's complement. -/
theorem addWithCarry_value_toInt : (addWithCarry a m c).value.toInt = (a.toInt + m.toInt + c.toNat).bmod 256 := by
  have hsigned : (addWithCarry a m c).value = BitVec.ofInt 8 (a.toInt + m.toInt + c.toNat) := by
    simp [addWithCarry, BitVec.ofInt_add, BitVec.ofNat_add]
  rw [hsigned, BitVec.toInt_ofInt]

/-- R165: operands of one sign and a result of the other is a signed result that no byte holds. -/
theorem addWithCarry_overflow :
    (addWithCarry a m c).overflow =
      decide (a.toInt + m.toInt + c.toNat < -128 ∨ 127 < a.toInt + m.toInt + c.toNat) := by
  have hbits : (addWithCarry a m c).overflow =
      (!((a ^^^ m).getLsbD 7) && ((addWithCarry a m c).value ^^^ a).getLsbD 7) := rfl
  have hvalue := addWithCarry_value_toInt a m c
  have ha : -128 ≤ a.toInt ∧ a.toInt < 128 := ⟨a.le_toInt, BitVec.toInt_lt⟩
  have hm : -128 ≤ m.toInt ∧ m.toInt < 128 := ⟨m.le_toInt, BitVec.toInt_lt⟩
  have hc := c.toNat_le
  rw [hbits, BitVec.getLsbD_xor, BitVec.getLsbD_xor, getLsbD_seven_eq_neg, getLsbD_seven_eq_neg, getLsbD_seven_eq_neg,
    hvalue, Int.bmod]
  by_cases hsame : a.toInt < 0 ↔ m.toInt < 0
  · have hequal : (decide (a.toInt < 0) ^^ decide (m.toInt < 0)) = false := by simp [hsame]
    rw [hequal, Bool.not_false, Bool.true_and, Bool.eq_iff_iff, bne_iff_ne, ne_eq, decide_eq_decide, decide_eq_true_iff]
    omega
  · have hdiffer : (decide (a.toInt < 0) ^^ decide (m.toInt < 0)) = true := by simpa using hsame
    rw [hdiffer, Bool.not_true, Bool.false_and, eq_comm, decide_eq_false_iff_not]
    omega

/-- R160, R161: the difference is the sum with the complemented byte. -/
theorem subWithBorrow_eq_addWithCarry_not : subWithBorrow a m c = addWithCarry a (~~~m) c := by
  have hnot : (~~~m).toNat = 255 - m.toNat := BitVec.toNat_not
  have hm := m.isLt
  have hvalue : (subWithBorrow a m c).value = (addWithCarry a (~~~m) c).value := by
    apply BitVec.eq_of_toNat_eq
    have hsub := subWithBorrow_value_toNat a m c
    have hadd := addWithCarry_value_toNat a (~~~m) c
    omega
  have hcarry : (subWithBorrow a m c).carry = (addWithCarry a (~~~m) c).carry := by
    apply decide_eq_decide.2
    omega
  have hoverflow : (subWithBorrow a m c).overflow = (addWithCarry a (~~~m) c).overflow := by
    have hsign : (a ^^^ m).getLsbD 7 = !((a ^^^ ~~~m).getLsbD 7) := by simp
    exact congrArg₂ (· && ·) hsign (congrArg (fun v => (v ^^^ a).getLsbD 7) hvalue)
  exact (AluResult.mk.injEq ..).mpr ⟨hvalue, hcarry, hoverflow⟩

end

/-- R160, R161: a sum or difference sets C and V, takes Z and N from its value, and leaves I, D and bits 4 and 5. -/
theorem State.withAlu_flags (s : State) (r : AluResult) :
    getFlag (s.withAlu r).p .C = r.carry ∧ getFlag (s.withAlu r).p .V = r.overflow ∧ ZNFrom (s.withAlu r).p r.value ∧
      SameFlagsOutside [.C, .Z, .V, .N] s.p (s.withAlu r).p :=
  ⟨getFlag_aluStatus s.p r .C, getFlag_aluStatus s.p r .V, znFrom_setZN _ _, (Effect.alu r).apply_flags s⟩

/-- The widened difference truncated is the difference of the bytes (R162). -/
theorem ofInt_toNat_sub_toNat (reg m : Byte) : BitVec.ofInt 8 ((reg.toNat : Int) - m.toNat) = reg - m := by
  apply BitVec.eq_of_toNat_eq
  rw [BitVec.toNat_ofInt, BitVec.toNat_sub]
  omega

/-- R162: a compare takes C from the unsigned order, Z and N from the difference. -/
theorem compareStatus_flags (p reg m : Byte) :
    getFlag (compareStatus p reg m) .C = decide (m.toNat ≤ reg.toNat) ∧
      getFlag (compareStatus p reg m) .Z = decide (m = reg) ∧
      getFlag (compareStatus p reg m) .N = (reg - m).getLsbD 7 := by
  obtain ⟨hz, hn⟩ : ZNFrom (compareStatus p reg m) (reg - m) := by
    rw [← ofInt_toNat_sub_toNat]
    exact znFrom_setZN _ _
  refine ⟨getFlag_compareStatus p reg m .C, hz.trans (decide_eq_decide.2 ?_), hn⟩
  exact sub_eq_zero.trans eq_comm

/-- R166: ADC and SBC compute the same from a state with another D. -/
theorem effectOf_withFlag_D {i : Instr} (hi : i.tag ≠ .php) (s : State) (b : Bool) :
    effectOf i (s.withFlag .D b) = effectOf i s :=
  have hframe : SameFlagsOutside [.I, .D] s.p (setFlag s.p .D b) :=
    ⟨fun f hf => (getFlag_setFlag s.p .D f b).trans (if_neg fun hfD => hf (by simp [hfD])), setFlag_forced s.p .D b⟩
  effectOf_withP hframe hi

end Sys2Proof.Machine
end

section
/-! The statements about arithmetic and compare, 42_arithmetic_compare.md: each settled from the facts about the map, the
effects and the sum and difference as numbers. -/

namespace Sys2Proof.Proofs

open Sys2Proof Sys2Proof.Machine

/-- Settles O33: the formulas of the two rules agree. -/
theorem subtractionIsAdditionOfTheComplement : Obligations.SubtractionIsAdditionOfTheComplement := by
  unfold Obligations.SubtractionIsAdditionOfTheComplement
  exact subWithBorrow_eq_addWithCarry_not

/-- Settles O34: the difference is a sum, and the complement of a byte is -1 less the byte as a signed number. -/
theorem overflowIsSignedAndCarryUnsigned : Obligations.OverflowIsSignedAndCarryUnsigned := by
  unfold Obligations.OverflowIsSignedAndCarryUnsigned
  intro a m c k
  have hk : (c.toNat : Int) = k := carry_toInt c
  have hnot : a.toInt + (~~~m).toInt + k = a.toInt - m.toInt - (1 - k) := by
    rw [toInt_not_byte]
    omega
  refine ⟨hk ▸ addWithCarry_overflow a m c, decide_eq_decide.2 ?_, ?_, decide_eq_decide.2 ?_⟩
  · omega
  · rw [subWithBorrow_eq_addWithCarry_not, addWithCarry_overflow, hk, hnot]
  · omega

/-- Settles O31: ADC is the effect that writes the sum. -/
theorem adcAddsWithCarry : Obligations.AdcAddsWithCarry := by
  unfold Obligations.AdcAddsWithCarry
  refine ⟨encodes_of_listed (t := .adc) (by decide) fun _ _ _ _ => rfl, fun op s => ?_⟩
  obtain ⟨hc, hv, hzn, hframe⟩ := s.withAlu_flags (addWithCarry s.a (operandByte op s) (getFlag s.p .C))
  have hvalue := addWithCarry_value_toNat s.a (operandByte op s) (getFlag s.p .C)
  simp only [← carry_toNat]
  exact ⟨rfl, _, exec_eq (.adc op) s, hvalue, hc, hv, hzn, hframe, rfl, rfl, rfl, rfl, ⟨rfl, rfl⟩, fun _ => rfl⟩

/-- Settles O32: SBC is the effect that writes the difference, whichever byte it comes from. -/
theorem sbcSubtractsWithBorrow : Obligations.SbcSubtractsWithBorrow := by
  unfold Obligations.SbcSubtractsWithBorrow
  refine ⟨?_, fun _ _ => rfl, by decide, by decide, fun op eb s => ?_⟩
  · refine encodes_of_listed (t := .sbc) (by decide) fun e he b1 b2 => ?_
    have hbyte : (e.1 == 0xEB#8) = false := by revert e; decide
    exact congrArg (Instr.sbc _) hbyte
  · obtain ⟨hc, hv, hzn, hframe⟩ := s.withAlu_flags (subWithBorrow s.a (operandByte op s) (getFlag s.p .C))
    have hvalue := subWithBorrow_value_toNat s.a (operandByte op s) (getFlag s.p .C)
    simp only [← carry_toInt]
    exact ⟨rfl, _, exec_eq (.sbc op eb) s, hvalue, hc, hv, hzn, hframe, rfl, rfl, rfl, rfl, ⟨rfl, rfl⟩, fun _ => rfl⟩

/-- Settles O36: each compare is the effect on P alone that takes its flags from the register and the operand. -/
theorem comparesWriteFlagsOnly : Obligations.ComparesWriteFlagsOnly := by
  unfold Obligations.ComparesWriteFlagsOnly
  refine ⟨encodes_of_listed (t := .cmp) (by decide) fun _ _ _ _ => rfl,
    encodes_of_listed (t := .cpx) (by decide) fun _ _ _ _ => rfl,
    encodes_of_listed (t := .cpy) (by decide) fun _ _ _ _ => rfl, fun op s e he => ?_⟩
  obtain ⟨houtcome, hexec⟩ : outcomeOf e.1 = .ok ∧
      exec e.1 s = .next (s.withP (compareStatus s.p e.2 (operandByte op s))) := by
    simp only [List.mem_cons, List.not_mem_nil, or_false] at he
    obtain rfl | rfl | rfl := he <;> exact ⟨rfl, exec_eq _ s⟩
  obtain ⟨hc, hz, hn⟩ := compareStatus_flags s.p e.2 (operandByte op s)
  exact ⟨houtcome, _, hexec, hc, hz, hn, (Effect.compare _ _).apply_flags s, rfl, rfl, rfl, rfl, rfl, ⟨rfl, rfl⟩,
    fun _ => rfl⟩

/-- Settles O35: the sum or difference does not depend on D, and the status after it takes D from the state before. -/
theorem decimalFlagDoesNotChangeArithmetic : Obligations.DecimalFlagDoesNotChangeArithmetic := by
  unfold Obligations.DecimalFlagDoesNotChangeArithmetic
  intro op eb s i hi
  obtain ⟨htag, r, hr⟩ : i.tag ≠ .php ∧ ∃ r, effectOf i s = .alu r := by
    simp only [List.mem_cons, List.not_mem_nil, or_false] at hi
    obtain rfl | rfl := hi <;> exact ⟨nofun, _, rfl⟩
  have hexec (b : Bool) : exec i (s.withFlag .D b) = .next ((s.withFlag .D b).withAlu r) := by
    rw [exec_eq, effectOf_withFlag_D htag, hr]
    rfl
  have hD (b : Bool) : getFlag ((s.withFlag .D b).withAlu r).p .D = b := by
    simp [withAlu_eq, State.withFlag]
  refine ⟨_, _, hexec false, hexec true, rfl, fun f hf => ?_, hD false, hD true⟩
  simp only [List.mem_cons, List.not_mem_nil, or_false] at hf
  obtain rfl | rfl | rfl | rfl := hf <;> simp [withAlu_eq]

end Sys2Proof.Proofs
end

section
/-! SUPPORT. The flags after BIT. -/

namespace Sys2Proof.Machine

/-- R183: BIT takes Z from `A & m`, and V and N from m itself. -/
theorem bitStatus_flags (p a m : Byte) :
    getFlag (bitStatus p a m) .Z = decide (a &&& m = 0#8) ∧ getFlag (bitStatus p a m) .V = m.getLsbD 6 ∧
      getFlag (bitStatus p a m) .N = m.getLsbD 7 :=
  ⟨(getFlag_bitStatus p a m .Z).trans (beq_eq_decide _ _), getFlag_bitStatus p a m .V, getFlag_bitStatus p a m .N⟩

end Sys2Proof.Machine
end

section
/-! The statements about the logical instructions and BIT, 43_logical_bit.md: each settled from the facts about the map, the
effects and the status byte. -/

namespace Sys2Proof.Proofs

open Sys2Proof Sys2Proof.Machine

/-- Settles O37: each logical instruction is the effect that loads its result into A and sets Z and N from it. -/
theorem logicalInstructionsWriteAZN : Obligations.LogicalInstructionsWriteAZN := by
  unfold Obligations.LogicalInstructionsWriteAZN
  refine ⟨encodes_of_listed (t := .and) (by decide) fun _ _ _ _ => rfl,
    encodes_of_listed (t := .ora) (by decide) fun _ _ _ _ => rfl,
    encodes_of_listed (t := .eor) (by decide) fun _ _ _ _ => rfl, fun op s e he => ?_⟩
  obtain ⟨houtcome, hexec⟩ : outcomeOf e.1 = .ok ∧ exec e.1 s = .next ((Effect.loadA e.2).apply s) := by
    simp only [List.mem_cons, List.not_mem_nil, or_false] at he
    obtain rfl | rfl | rfl := he <;> exact ⟨rfl, exec_eq _ s⟩
  exact ⟨houtcome, _, hexec, rfl, znFrom_setZN s.p e.2, (Effect.loadA e.2).apply_flags s, rfl, rfl, rfl, rfl, ⟨rfl, rfl⟩,
    fun _ => rfl⟩

/-- Settles O38: BIT is the effect on P alone that tests the operand byte against A (D8). -/
theorem bitTestsMemoryAgainstA : Obligations.BitTestsMemoryAgainstA := by
  unfold Obligations.BitTestsMemoryAgainstA
  have hencodes : ∀ e ∈ [(0x24#8, Mode.zeroPage), (0x2C#8, .absolute)], Encodes e.1 e.2 .bit :=
    encodes_of_listed (t := .bit) (by decide) fun _ _ _ _ => rfl
  refine ⟨hencodes _ (.head _), hencodes _ (.tail _ (.head _)), fun op s => ?_⟩
  obtain ⟨hz, hv, hn⟩ := bitStatus_flags s.p s.a (operandByte op s)
  exact ⟨rfl, _, exec_eq (.bit op) s, hz, hv, hn, (Effect.bitTest _).apply_flags s, rfl, rfl, rfl, rfl, rfl, ⟨rfl, rfl⟩,
    fun _ => rfl⟩

end Sys2Proof.Proofs
end

section
/-! SUPPORT. The shifted, raised and lowered byte as numbers; the flags after a shift, and where its result goes; the one byte
that a write changes. -/

namespace Sys2Proof.Machine

section
variable (v : Byte) (c : Bool)

/-- R194, R196, R198: one more, modulo 256. -/
theorem byte_add_one_toNat : (v + 1#8).toNat = (v.toNat + 1) % 256 := BitVec.toNat_add v 1#8

/-- R195, R197, R199: one less, modulo 256. -/
theorem byte_sub_one_toNat : (v - 1#8).toNat = (v.toNat + 255) % 256 :=
  (BitVec.toNat_sub v 1#8).trans (congrArg (· % 256) (Nat.add_comm _ _))

/-- R190: a shift to the left doubles the byte and drops bit 7. -/
theorem shiftLeft_value_toNat : (shiftLeft v).value.toNat = 2 * v.toNat % 256 := by
  rw [shiftLeft, BitVec.toNat_shiftLeft, Nat.shiftLeft_eq, Nat.mul_comm]

/-- R191: a shift to the right halves the byte and drops bit 0. -/
theorem shiftRight_value_toNat : (shiftRight v).value.toNat = v.toNat / 2 := by
  rw [shiftRight, BitVec.toNat_ushiftRight, Nat.shiftRight_eq_div_pow]

/-- R192: the bit that the shift to the left leaves clear is bit 0, so the carry is added there. -/
theorem rotateLeft_value_toNat : (rotateLeft c v).value.toNat = (2 * v.toNat + c.toNat) % 256 := by
  have hsum : (rotateLeft c v).value = v <<< 1 + (BitVec.ofBool c).setWidth 8 := by
    refine (BitVec.add_eq_or_of_and_eq_zero _ _ ?_).symm
    ext k hk
    cases k <;> simp
  have hcarry : ((BitVec.ofBool c).setWidth 8).toNat = c.toNat := by cases c <;> rfl
  rw [hsum, BitVec.toNat_add, BitVec.toNat_shiftLeft, Nat.shiftLeft_eq, hcarry]
  omega

/-- R193: the bit that the shift to the right leaves clear is bit 7, so the carry is added there. -/
theorem rotateRight_value_toNat : (rotateRight c v).value.toNat = v.toNat / 2 + 128 * c.toNat := by
  have hhalf : v.toNat / 2 ^ 1 < 2 ^ 7 := by omega
  have hcarry : ((BitVec.ofBool c).setWidth 8 <<< 7).toNat = c.toNat <<< 7 := by cases c <;> rfl
  rw [rotateRight, BitVec.toNat_or, BitVec.toNat_ushiftRight, Nat.shiftRight_eq_div_pow, hcarry, Nat.or_comm,
    ← Nat.shiftLeft_add_eq_or_of_lt hhalf, Nat.shiftLeft_eq]
  omega

end

section
variable (s : State)

/-- R52: a write changes the byte at its address alone. -/
theorem State.write_oneByte (a : Word) (v : Byte) :
    (s.write a v).read a = v ∧ SameMemoryOutside [a] s (s.write a v) :=
  ⟨(State.read_write s a a v).trans (if_pos rfl),
    fun b hb => (State.read_write s a b v).trans (if_neg (List.ne_of_not_mem_cons hb))⟩

/-- R190–R193: a shift takes C from the bit shifted off, Z and N from the result, and leaves every other flag. -/
theorem shiftStatus_flags (r : ShiftResult) :
    getFlag (shiftStatus s.p r) .C = r.carry ∧ ZNFrom (shiftStatus s.p r) r.value ∧
      SameFlagsOutside [.C, .Z, .N] s.p (shiftStatus s.p r) :=
  ⟨getFlag_shiftStatus s.p r .C, znFrom_setZN _ _, (Effect.shiftA r).apply_flags s⟩

variable {op : Operand} (f : Byte → ShiftResult)

/-- R190: in Accumulator mode A takes the result, and memory stays. -/
theorem shiftWith_of_noMem (h : noMem op = true) :
    (shiftWith f op s).a = (f (shiftOperand op s)).value ∧ SameMemory s (shiftWith f op s) := by
  rw [shiftWith, writeShifted_eq, if_pos h]
  exact ⟨rfl, fun _ => rfl⟩

/-- R190: in every other mode the byte at the resolved address takes the result, and A and every other byte stay. -/
theorem shiftWith_of_mem (h : noMem op = false) :
    (shiftWith f op s).a = s.a ∧ (shiftWith f op s).read (resolve op s) = (f (shiftOperand op s)).value ∧
      SameMemoryOutside [resolve op s] s (shiftWith f op s) := by
  rw [shiftWith, writeShifted_eq, if_neg (Bool.eq_false_iff.1 h)]
  exact ⟨rfl, s.write_oneByte _ _⟩

end

end Sys2Proof.Machine
end

section
/-! The statements about shifts, rotates, increments and decrements, 44_shift_incdec.md: each settled from the facts about the
map, the effects and the results as numbers. -/

namespace Sys2Proof.Proofs

open Sys2Proof Sys2Proof.Machine

/-- Settles O39: the four are one shape, `shiftWith`, and differ in the function that shifts the byte. -/
theorem shiftsAndRotatesMoveOneBit : Obligations.ShiftsAndRotatesMoveOneBit := by
  unfold Obligations.ShiftsAndRotatesMoveOneBit
  refine ⟨encodes_of_listed (t := .asl) (by decide) fun _ _ _ _ => rfl,
    encodes_of_listed (t := .lsr) (by decide) fun _ _ _ _ => rfl,
    encodes_of_listed (t := .rol) (by decide) fun _ _ _ _ => rfl,
    encodes_of_listed (t := .ror) (by decide) fun _ _ _ _ => rfl, ?_⟩
  intro op s v c e he
  have hc : (getFlag s.p .C).toNat = c := carry_toNat _
  obtain ⟨f, houtcome, hexec, hvalue, hcarry⟩ : ∃ f : Byte → ShiftResult, outcomeOf e.1 = .ok ∧
      exec e.1 s = .next (shiftWith f op s) ∧ (f v).value.toNat = e.2.1 ∧ (f v).carry = e.2.2 := by
    simp only [List.mem_cons, List.not_mem_nil, or_false, ← hc] at he
    obtain rfl | rfl | rfl | rfl := he
    · exact ⟨shiftLeft, rfl, rfl, shiftLeft_value_toNat v, rfl⟩
    · exact ⟨shiftRight, rfl, rfl, shiftRight_value_toNat v, rfl⟩
    · exact ⟨rotateLeft (s.flag .C), rfl, rfl, rotateLeft_value_toNat v _, rfl⟩
    · exact ⟨rotateRight (s.flag .C), rfl, rfl, rotateRight_value_toNat v _, rfl⟩
  obtain ⟨hC, hzn, hframe⟩ := shiftStatus_flags s (f v)
  rw [← hvalue, BitVec.ofNat_toNat, BitVec.setWidth_eq]
  refine ⟨houtcome, _, hexec, hC.trans hcarry, hzn, hframe, fun h => ?_, fun h => ?_, ?_⟩
  · obtain ⟨ha, hmem⟩ := shiftWith_of_noMem s f h
    exact ⟨congrArg _ ha, hmem⟩
  · obtain ⟨ha, hread, hmem⟩ := shiftWith_of_mem s f h
    exact ⟨ha, congrArg _ hread, hmem⟩
  · simp [SameMarks]

/-- Settles O40: INC and DEC are one write at the resolved address, followed by SetZN of the same byte. -/
theorem incAndDecChangeOneMemoryByte : Obligations.IncAndDecChangeOneMemoryByte := by
  unfold Obligations.IncAndDecChangeOneMemoryByte
  refine ⟨encodes_of_listed (t := .inc) (by decide) fun _ _ _ _ => rfl,
    encodes_of_listed (t := .dec) (by decide) fun _ _ _ _ => rfl, ?_⟩
  intro op s v e he
  obtain ⟨r, houtcome, hexec, hvalue⟩ : ∃ r : Byte, outcomeOf e.1 = .ok ∧
      exec e.1 s = .next ((Effect.storeZN (resolve op s) r).apply s) ∧ r.toNat = e.2 := by
    simp only [List.mem_cons, List.not_mem_nil, or_false] at he
    obtain rfl | rfl := he
    · exact ⟨v + 1#8, rfl, exec_eq _ s, byte_add_one_toNat v⟩
    · exact ⟨v - 1#8, rfl, exec_eq _ s, byte_sub_one_toNat v⟩
  obtain ⟨hread, hmem⟩ := s.write_oneByte (resolve op s) r
  rw [← hvalue, BitVec.ofNat_toNat, BitVec.setWidth_eq]
  exact ⟨houtcome, _, hexec, congrArg _ hread, hmem, znFrom_setZN s.p r, (Effect.storeZN _ r).apply_flags s, rfl, rfl, rfl,
    rfl, rfl, rfl, rfl⟩

/-- Settles O41: INX and DEX load the changed X back into X, INY and DEY the changed Y into Y, and each sets Z and N from it. -/
theorem indexRegistersCountModulo256 : Obligations.IndexRegistersCountModulo256 := by
  unfold Obligations.IndexRegistersCountModulo256
  refine ⟨fun _ _ => rfl, fun _ _ => rfl, fun _ _ => rfl, fun _ _ => rfl, fun s => ⟨fun e he => ?_, fun e he => ?_⟩⟩
  · obtain ⟨r, houtcome, hexec, hx, hy⟩ : ∃ r : Byte, outcomeOf e.1 = .ok ∧
        exec e.1 s = .next ((Effect.loadX r).apply s) ∧ r.toNat = e.2.1 ∧ s.y.toNat = e.2.2 := by
      simp only [List.mem_cons, List.not_mem_nil, or_false] at he
      obtain rfl | rfl := he
      · exact ⟨s.x + 1#8, rfl, exec_eq _ s, byte_add_one_toNat s.x, rfl⟩
      · exact ⟨s.x - 1#8, rfl, exec_eq _ s, byte_sub_one_toNat s.x, rfl⟩
    exact ⟨houtcome, _, hexec, hx, hy, znFrom_setZN s.p r, (Effect.loadX r).apply_flags s, rfl, rfl, rfl, ⟨rfl, rfl⟩,
      fun _ => rfl⟩
  · obtain ⟨r, houtcome, hexec, hx, hy⟩ : ∃ r : Byte, outcomeOf e.1 = .ok ∧
        exec e.1 s = .next ((Effect.loadY r).apply s) ∧ s.x.toNat = e.2.1 ∧ r.toNat = e.2.2 := by
      simp only [List.mem_cons, List.not_mem_nil, or_false] at he
      obtain rfl | rfl := he
      · exact ⟨s.y + 1#8, rfl, exec_eq _ s, rfl, byte_add_one_toNat s.y⟩
      · exact ⟨s.y - 1#8, rfl, exec_eq _ s, rfl, byte_sub_one_toNat s.y⟩
    exact ⟨houtcome, _, hexec, hx, hy, znFrom_setZN s.p r, (Effect.loadY r).apply_flags s, rfl, rfl, rfl, ⟨rfl, rfl⟩,
      fun _ => rfl⟩

end Sys2Proof.Proofs
end

section
/-! SUPPORT. JSR and RTS as changes of the state; the three bytes that BRK stores, and that it stores nowhere else. -/

namespace Sys2Proof.Machine

variable (s : State)

/-- R221: JSR pushes the address of its last byte and jumps. -/
theorem exec_jsr (addr : Word) : exec (.jsr addr) s = .next ((s.push16 (s.pc - 1#16)).withPC addr) := exec_eq _ s

/-- R222: RTS pulls a word and jumps one past it, changing PC and SP alone. -/
theorem exec_rts : exec .rts s = .next { s with pc := s.pulled16 + 1#16, sp := s.sp + 2#8 } := by
  rw [exec_eq, effectOf, Effect.apply, State.afterPull16_eq]
  rfl

/-- R223, R306: the bytes at the three stack addresses after BRK. They are three addresses, also where SP wraps. -/
theorem State.trapEntry_read_stack :
    s.trapEntry.read (stackAddr s.sp) = hi (s.pc - 1#16) ∧
      s.trapEntry.read (stackAddr (s.sp - 1#8)) = lo (s.pc - 1#16) ∧
      s.trapEntry.read (stackAddr (s.sp - 2#8)) = statusPushed s.p := by
  have h01 : s.sp ≠ s.sp - 1#8 := by bv_omega
  have h02 : s.sp ≠ s.sp - 2#8 := by bv_omega
  have h12 : s.sp - 1#8 ≠ s.sp - 2#8 := by bv_omega
  simp [State.trapEntry_read, h01, h02, h12]

/-- R306: BRK stores nowhere else. -/
theorem State.trapEntry_read_outside :
    SameMemoryOutside [stackAddr s.sp, stackAddr (s.sp - 1#8), stackAddr (s.sp - 2#8)] s s.trapEntry := by
  intro a ha
  simp only [List.mem_cons, List.not_mem_nil, or_false, not_or] at ha
  obtain ⟨hhigh, hlow, hstatus⟩ := ha
  rw [State.trapEntry_read, if_neg hstatus, if_neg hlow, if_neg hhigh]

end Sys2Proof.Machine
end

section
/-! The statements about control transfer, 45_control_transfer.md: each settled from the facts about the branch, the stack, BRK
and RTI. -/

namespace Sys2Proof.Proofs

open Sys2Proof Sys2Proof.Machine

/-- Settles O42: the eight are one shape, and differ in the flag and its value. -/
theorem branchesGoByTheirFlag : Obligations.BranchesGoByTheirFlag := by
  unfold Obligations.BranchesGoByTheirFlag
  refine ⟨fun b1 b2 e he => ?_, fun off s e he => ?_⟩
  · simp only [List.mem_cons, List.not_mem_nil, or_false] at he
    obtain rfl | rfl | rfl | rfl | rfl | rfl | rfl | rfl := he
    all_goals
      dsimp only
      rfl
  · obtain ⟨houtcome, hexec⟩ : outcomeOf e.1 = .ok ∧
        exec e.1 s = .next (s.withPC (if getFlag s.p e.2.1 == e.2.2 then s.pc + sext16 off else s.pc)) := by
      simp only [List.mem_cons, List.not_mem_nil, or_false] at he
      rw [← branchIf_eq]
      obtain rfl | rfl | rfl | rfl | rfl | rfl | rfl | rfl := he
      all_goals
        simp only [beq_true, beq_false]
        exact ⟨rfl, rfl⟩
    refine ⟨houtcome, _, hexec, fun htaken => ?_, fun hnot => ?_, rfl, rfl, rfl, rfl, rfl, ⟨rfl, rfl⟩, fun _ => rfl⟩
    · rw [State.withPC_pc, htaken, beq_self_eq_true, if_pos rfl]
      exact add_sext16_toNat s.pc off
    · rw [State.withPC_pc, hnot, Bool.not_beq_self]
      rfl

/-- Settles O44: JSR is one 16-bit push followed by a jump, and the push is that of O23. -/
theorem jsrPushesItsLastByteAddress : Obligations.JsrPushesItsLastByteAddress := by
  unfold Obligations.JsrPushesItsLastByteAddress
  refine ⟨fun _ _ => rfl, fun addr s => ?_⟩
  obtain ⟨hsp, -, -, hhigh, hlow, hmem⟩ := pushedWordIsPulledBack s (s.pc - 1#16)
  exact ⟨rfl, _, exec_jsr s addr, rfl, hsp, hhigh, hlow, hmem, rfl, rfl, rfl, rfl, ⟨rfl, rfl⟩⟩

/-- Settles O45: the two pulls of RTS read the word at SP + 1 and SP + 2. -/
theorem rtsReturnsPastThePulledAddress : Obligations.RtsReturnsPastThePulledAddress := by
  unfold Obligations.RtsReturnsPastThePulledAddress
  exact ⟨fun _ _ => rfl, rfl, fun s => ⟨_, exec_rts s, congrArg (· + 1#16) (State.pulled16_eq s), rfl, rfl, rfl, rfl, rfl,
    ⟨rfl, rfl⟩, fun _ => rfl⟩⟩

/-- Settles O46: the word that RTS pulls is the one that JSR pushed, PC - 1, and the pull takes SP back over it. -/
theorem rtsAfterJsrReturnsToTheCaller : Obligations.RtsAfterJsrReturnsToTheCaller := by
  unfold Obligations.RtsAfterJsrReturnsToTheCaller
  intro addr pc' s
  obtain ⟨hsp, hpulled, -⟩ := pushedWordIsPulledBack s (s.pc - 1#16)
  refine ⟨_, _, exec_jsr s addr, exec_rts _, ?_, ?_, rfl, rfl, rfl, rfl⟩
  · calc (s.push16 (s.pc - 1#16)).pulled16 + 1#16
      _ = s.pc - 1#16 + 1#16 := congrArg (· + 1#16) hpulled
      _ = s.pc := BitVec.sub_add_cancel _ _
  · calc (s.push16 (s.pc - 1#16)).sp + 2#8
      _ = s.sp - 2#8 + 2#8 := congrArg (· + 2#8) hsp
      _ = s.sp := BitVec.sub_add_cancel _ _

/-- Settles O47: BRK is the entry of R306; the vector lies above the stack page, so no push reaches it (D12, D13). -/
theorem brkEntersThroughTheVector : Obligations.BrkEntersThroughTheVector := by
  unfold Obligations.BrkEntersThroughTheVector
  refine ⟨fun _ _ => rfl, rfl, rfl, fun s => ?_⟩
  obtain ⟨hhigh, hlow, hstatus⟩ := s.trapEntry_read_stack
  exact ⟨_, exec_eq .brk s, s.trapEntry_pc, s.trapEntry_sp, hhigh, hlow, hstatus, s.trapEntry_read_outside,
    getFlag_setFlag s.p .I .I true, Effect.trapEntry.apply_flags s, rfl, rfl, rfl, ⟨rfl, rfl⟩⟩

/-- Settles O48: RTI is the return of R307, and a status pull takes every flag and no other bit. -/
theorem rtiRestoresStatusAndPC : Obligations.RtiRestoresStatusAndPC := by
  unfold Obligations.RtiRestoresStatusAndPC
  refine ⟨fun _ _ => rfl, rfl, fun s => ?_⟩
  have hexec := exec_eq .rti s
  rw [effectOf, Effect.apply, State.trapReturn_eq] at hexec
  exact ⟨_, hexec, getFlag_statusPulled s.p _, statusPulled_forced s.p _, rfl, rfl, rfl, rfl, rfl, ⟨rfl, rfl⟩, fun _ => rfl⟩

/-- Settles O43: JMP is the jump to the resolved address, which the mode gives. -/
theorem jumpGoesToTheResolvedAddress : Obligations.JumpGoesToTheResolvedAddress := by
  unfold Obligations.JumpGoesToTheResolvedAddress
  have hexec (op : Operand) (s : State) : exec (.jmp op) s = .next { s with pc := resolve op s } := exec_eq _ s
  exact ⟨fun _ _ => rfl, fun _ _ => rfl, fun w => hexec (.absolute w), fun w => hexec (.indirect w),
    fun op s => ⟨rfl, hexec op s⟩⟩

end Sys2Proof.Proofs
end

section
/-! SUPPORT. The opcode bytes of instructions without operand bytes; the flags of an effect within a larger list; the status that
PHP pushes, and the one byte that a push changes. -/

namespace Sys2Proof.Machine

/-- R82: an opcode byte without operand bytes decodes to the same instruction whatever follows it. -/
theorem encodesPlain_of_noOperandBytes {opc : Byte} {i : Instr}
    (h : (lookup opc).mode.operandBytes = 0 ∧ decodeBytes opc 0 0 = i) : EncodesPlain opc i :=
  fun _ _ => (decodeBytes_unused_both _ _ _ h.1).trans h.2

/-- Status bytes that agree outside a list agree outside every larger one. -/
theorem SameFlagsOutside.mono {l m : List Flag} {p q : Byte} (h : SameFlagsOutside l p q) (hlm : l ⊆ m) :
    SameFlagsOutside m p q :=
  ⟨fun f hf => h.1 f fun hfl => hf (hlm hfl), h.2⟩

/-- R242: where bits 4 and 5 of a status byte are 1, it is pushed as it is. -/
theorem statusPushed_of_forced {p : Byte} (h : p &&& 0x30#8 = 0x30#8) : statusPushed p = p := by
  rw [statusPushed, ← h]
  ext k
  rw [BitVec.getElem_or, BitVec.getElem_and]
  exact sup_inf_self

/-- R130: a push changes the byte at its stack address alone. -/
theorem State.push_oneByte (s : State) (v : Byte) :
    (s.push v).read (stackAddr s.sp) = v ∧ SameMemoryOutside [stackAddr s.sp] s (s.push v) :=
  s.write_oneByte (stackAddr s.sp) v

end Sys2Proof.Machine
end

section
/-! The statements about the stack, the flags, the transfers and NOP, 46_stack_flags_transfers.md: each settled from the facts
about the map, the effects and the status byte. -/

namespace Sys2Proof.Proofs

open Sys2Proof Sys2Proof.Machine

/-- Settles O50: both are one push, PHA of A and PHP of the status with bits 4 and 5 set. -/
theorem pushesStoreAOrTheStatus : Obligations.PushesStoreAOrTheStatus := by
  unfold Obligations.PushesStoreAOrTheStatus
  refine ⟨fun _ _ => rfl, fun _ _ => rfl, fun s hbits => ?_, fun s e he => ?_⟩
  · obtain ⟨hread, -⟩ := s.push_oneByte (statusPushed s.p)
    exact ⟨_, exec_eq .php s, hread.trans (statusPushed_of_forced hbits)⟩
  · obtain ⟨houtcome, hexec⟩ : outcomeOf e.1 = .ok ∧ exec e.1 s = .next (s.push e.2) := by
      simp only [List.mem_cons, List.not_mem_nil, or_false] at he
      obtain rfl | rfl := he <;> exact ⟨rfl, exec_eq _ s⟩
    obtain ⟨hread, hmem⟩ := s.push_oneByte e.2
    exact ⟨houtcome, _, hexec, hread, hmem, rfl, rfl, rfl, rfl, rfl, rfl, ⟨rfl, rfl⟩⟩

/-- Settles O51: both pull the byte at SP + 1, PLA into A with SetZN, PLP into the six flags. -/
theorem pullsLoadAOrTheStatus : Obligations.PullsLoadAOrTheStatus := by
  unfold Obligations.PullsLoadAOrTheStatus
  refine ⟨fun _ _ => rfl, fun _ _ => rfl, rfl, rfl, fun s => ⟨⟨_, exec_eq .pla s, ?_⟩, ⟨_, exec_eq .plp s, ?_⟩⟩⟩
  · exact ⟨rfl, znFrom_setZN s.p s.pulled, Effect.pullA.apply_flags s, rfl, rfl, rfl, rfl, ⟨rfl, rfl⟩, fun _ => rfl⟩
  · exact ⟨getFlag_statusPulled s.p s.pulled, statusPulled_forced s.p s.pulled, rfl, rfl, rfl, rfl, rfl, ⟨rfl, rfl⟩,
      fun _ => rfl⟩

/-- Settles O52: the seven are one effect, and differ in the flag and its value. -/
theorem flagInstructionsWriteOneFlag : Obligations.FlagInstructionsWriteOneFlag := by
  unfold Obligations.FlagInstructionsWriteOneFlag
  refine ⟨fun e he => encodesPlain_of_noOperandBytes (by revert e; decide), fun s e he => ?_⟩
  obtain ⟨houtcome, hexec⟩ : outcomeOf e.1 = .ok ∧ exec e.1 s = .next ((Effect.writeFlag e.2.1 e.2.2).apply s) := by
    simp only [List.mem_cons, List.not_mem_nil, or_false] at he
    obtain rfl | rfl | rfl | rfl | rfl | rfl | rfl := he <;> exact ⟨rfl, exec_eq _ s⟩
  have hflag : getFlag (setFlag s.p e.2.1 e.2.2) e.2.1 = e.2.2 := (getFlag_setFlag _ _ _ _).trans (if_pos rfl)
  exact ⟨houtcome, _, hexec, hflag, (Effect.writeFlag _ _).apply_flags s, rfl, rfl, rfl, rfl, rfl, ⟨rfl, rfl⟩, fun _ => rfl⟩

/-- Settles O53: TXS writes SP alone, and each of the other five loads its source into a register and sets Z and N from it. -/
theorem transfersCopyOneRegister : Obligations.TransfersCopyOneRegister := by
  unfold Obligations.TransfersCopyOneRegister
  refine ⟨fun e he => encodesPlain_of_noOperandBytes (by revert e; decide), fun s => ⟨fun e he => ?_, fun e he => ?_, ?_⟩⟩
  · simp only [List.mem_cons, List.not_mem_nil, or_false] at he
    have hflags : SameFlagsOutside [.Z, .N] s.p ((effectOf e.1 s).apply s).p := by
      refine ((effectOf e.1 s).apply_flags s).mono ?_
      obtain rfl | rfl | rfl | rfl | rfl | rfl := he <;> simp [effectOf, Effect.flags]
    obtain rfl | rfl | rfl | rfl | rfl | rfl := he <;>
      exact ⟨rfl, _, exec_eq _ s, rfl, rfl, rfl, rfl, hflags, rfl, ⟨rfl, rfl⟩, fun _ => rfl⟩
  · simp only [List.mem_cons, List.not_mem_nil, or_false] at he
    obtain rfl | rfl | rfl | rfl | rfl := he <;> exact ⟨_, exec_eq _ s, znFrom_setZN s.p _⟩
  · exact ⟨_, exec_eq .txs s, rfl⟩

/-- Settles O54: by the map the seven bytes have no operand bytes, and NOP has the effect that keeps the state (D9, D5). -/
theorem nopChangesNothing : Obligations.NopChangesNothing := by
  unfold Obligations.NopChangesNothing
  refine ⟨fun b hb => ?_, fun opc s => ⟨rfl, exec_eq (.nop opc) s⟩⟩
  obtain ⟨hbytes, hdecode, hlength, hcycles⟩ : (lookup b).mode.operandBytes = 0 ∧ decodeBytes b 0 0 = .nop b ∧
      (lookup b).mode.length = 1 ∧ (lookup b).cycles = 2 := by
    revert b
    decide
  exact ⟨encodesPlain_of_noOperandBytes ⟨hbytes, hdecode⟩, hlength, hcycles⟩

end Sys2Proof.Proofs
end

section
/-! SUPPORT. The instructions of the 22 undocumented tags: their outcome, and the one effect they all have. -/

namespace Sys2Proof.Machine

variable {i : Instr} (h : i.tag.undocumented = true)
include h

/-- R301: the outcome follows from the tag alone. -/
theorem outcomeOf_of_undocumented : outcomeOf i = .unimplemented i.tag i.opcode := if_pos h

/-- R270: every undocumented instruction has the effect that marks the state. -/
theorem effectOf_of_undocumented (s : State) : effectOf i s = .mark i := by
  cases i
  case aac | aax | arr | asr | atx | axa | axs | dcp | dop | isc | kil | lar | lax | rla | rra | slo | sre | sxa | sya | top
    | xaa | xas => rfl
  all_goals cases h

/-- R270: execution of an undocumented instruction raises the unimplemented outcome and does nothing else (D6). -/
theorem exec_of_undocumented (s : State) : exec i s = .next (s.raiseUnimplemented i) := by
  rw [exec_eq, effectOf_of_undocumented h, Effect.apply]

end Sys2Proof.Machine
end

section
/-! The statements about the undocumented instructions, 47_undocumented.md: the first settled from their one effect, the second
from the first at the fetched instruction. -/

namespace Sys2Proof.Proofs

open Sys2Proof Sys2Proof.Machine

/-- Settles O15: the 22 listed tags are the undocumented ones, whose effect writes the mark alone and keeps the first (R31). -/
theorem undocumentedInstructionsOnlyMark : Obligations.UndocumentedInstructionsOnlyMark := by
  unfold Obligations.UndocumentedInstructionsOnlyMark
  intro i s hi
  have hundocumented : i.tag.undocumented = true := 
    (List.all_eq_true (p := Tag.undocumented)).1 (by decide) i.tag hi
  refine ⟨outcomeOf_of_undocumented hundocumented, _, exec_of_undocumented hundocumented s, rfl, rfl, rfl, rfl, rfl, rfl, rfl,
    rfl, s.raiseUnimplemented_read i, ?_⟩
  rw [State.raiseUnimplemented_unimpl]
  cases s.unimpl <;> rfl

/-- Settles O16: execution after the fetch is that of O15, and the step then adds the opcode's cost to the clock. -/
theorem undocumentedStepAdvancesAndMarks : Obligations.UndocumentedStepAdvancesAndMarks := by
  unfold Obligations.UndocumentedStepAdvancesAndMarks
  intro s hi
  rw [← State.fetchInstr_tag] at hi
  obtain ⟨houtcome, t, hexec, hpc, hsp, ha, hx, hy, hp, hclock, -, hread, hmark⟩ :=
    undocumentedInstructionsOnlyMark s.fetchInstr s.enter hi
  rw [State.fetchInstr_tag, State.fetchInstr_opcode] at houtcome hmark
  exact ⟨houtcome, _, step_of_exec hexec, hpc, congrArg (· + s.fetchCycles) hclock, hsp, ha, hx, hy, hp, hread, hmark⟩

end Sys2Proof.Proofs
end

section
/-! SUPPORT. The mark after execution, and RTI straight after BRK. -/

namespace Sys2Proof.Machine

/-- R270, R301: an undocumented instruction marks the state, unless it is marked; no other instruction changes the mark. -/
theorem effectOf_apply_unimpl (i : Instr) (s : State) :
    ((effectOf i s).apply s).unimpl =
      if i.tag.undocumented then s.unimpl.or (some (i.tag, i.opcode)) else s.unimpl := by
  cases i
  case asl | lsr | rol | ror =>
    exact (congrArg State.unimpl (shiftWith_eq_apply _ _ s)).symm.trans (shiftWith_unimpl s _ _)
  all_goals rfl

/-- R27: pulling a pushed status gives the status back, also when a flag was written in between. -/
theorem statusPulled_setFlag_statusPushed (p : Byte) (f : Flag) (b : Bool) :
    statusPulled (setFlag p f b) (statusPushed p) = p :=
  status_ext (fun g => by rw [getFlag_statusPulled, getFlag_statusPushed]) (by rw [statusPulled_forced, setFlag_forced])

/-- R307: RTI straight after BRK's entry, from any PC, changes the entered state in PC, P and SP alone. -/
theorem State.trapReturn_trapEntry (s : State) (pc' : Word) :
    (s.trapEntry.withPC pc').trapReturn = { s.trapEntry with pc := s.pc - 1#16, p := s.p, sp := s.sp } := by
  obtain ⟨hhigh, hlow, hstatus⟩ := s.trapEntry_read_stack
  have h1 : s.sp - 3#8 + 1#8 = s.sp - 2#8 := by bv_omega
  have h2 : s.sp - 3#8 + 2#8 = s.sp - 1#8 := by bv_omega
  have h3 : s.sp - 3#8 + 3#8 = s.sp := BitVec.sub_add_cancel _ _
  simp only [State.trapReturn_eq, State.withPC_sp, State.withPC_p, State.withPC_read, State.trapEntry_sp, State.trapEntry_p,
    h1, h2, h3, hhigh, hlow, hstatus, word_hi_lo, statusPulled_setFlag_statusPushed]
  rfl

end Sys2Proof.Machine
end

section
/-! SUPPORT. The trace line: its numbers, the widths of the texts it is made of, and so its columns. -/

namespace Sys2Proof

theorem lo_toNat (w : Word) : (lo w).toNat = w.toNat % 256 := BitVec.extractLsb'_toNat 0 8 w

theorem hi_toNat (w : Word) : (hi w).toNat = w.toNat / 256 := by
  have hword := word_toNat (hi w) (lo w)
  rw [word_hi_lo, lo_toNat] at hword
  omega

namespace Machine

/-! Numbers -/

@[simp] theorem hex2_length (b : Byte) : (hex2 b).length = 2 := rfl

@[simp] theorem hex4_length (w : Word) : (hex4 w).length = 4 := rfl

@[simp] theorem decimal3_length (n : Nat) : (decimal3 n).length = 3 := rfl

/-- R321: the four digits of a word, from its value. -/
theorem hex4_eq (w : Word) :
    hex4 w =
      [hexDigit (w.toNat / 4096), hexDigit (w.toNat / 256 % 16), hexDigit (w.toNat / 16 % 16), hexDigit (w.toNat % 16)] := by
  have hfirst : w.toNat / 256 / 16 = w.toNat / 4096 := Nat.div_div_eq_div_mul _ _ _
  have hthird : w.toNat % 256 / 16 = w.toNat / 16 % 16 := by omega
  have hfourth : w.toNat % 256 % 16 = w.toNat % 16 := Nat.mod_mod_of_dvd _ (by decide)
  rw [hex4, hex2, hex2, hi_toNat, lo_toNat, hfirst, hthird, hfourth]
  rfl

/-- The hexadecimal digits below ten are the decimal digits. -/
theorem hexDigit_eq_digitChar {n : Nat} (h : n < 10) : hexDigit n = n.digitChar := by
  revert n
  decide

/-- R321: the dot position's field is its decimal digits, with spaces in front up to three characters. -/
theorem decimal3_eq {n : Nat} (h : n < 1000) :
    decimal3 n = List.replicate (3 - (Nat.toDigits 10 n).length) ' ' ++ Nat.toDigits 10 n := by
  have hlast : hexDigit (n % 10) = (n % 10).digitChar := hexDigit_eq_digitChar (by omega)
  rw [decimal3, hlast]
  by_cases hten : n < 10
  · rw [if_pos (by omega), if_pos hten, Nat.mod_eq_of_lt hten, Nat.toDigits_of_lt_base hten]
    rfl
  rw [if_neg hten, Nat.toDigits_of_base_le (by decide) (by omega)]
  by_cases hhundred : n < 100
  · have htens : n / 10 < 10 := by omega
    rw [if_pos hhundred, Nat.mod_eq_of_lt htens, hexDigit_eq_digitChar htens, Nat.toDigits_of_lt_base htens]
    rfl
  · have hhundreds : n / 100 < 10 := by omega
    have htens : hexDigit (n / 10 % 10) = (n / 10 % 10).digitChar := hexDigit_eq_digitChar (by omega)
    rw [if_neg hhundred, hexDigit_eq_digitChar hhundreds, htens, Nat.toDigits_of_base_le (by decide) (by omega),
      Nat.div_div_eq_div_mul, Nat.toDigits_of_lt_base hhundreds]
    rfl

/-! Columns -/

/-- A text no wider than its field fills the field once padded. -/
theorem padRight_length {k : Nat} {t : Text} (h : t.length ≤ k) : (padRight k t).length = k := by
  rw [padRight, List.length_append, List.length_replicate, Nat.add_sub_cancel' h]

@[simp] theorem mnemonic_length (t : Tag) : (mnemonic t).length = 3 := by cases t <;> rfl

/-- R322: no template is wider than the 28 characters that a mnemonic and a space leave of 32. -/
theorem operandText_length_le (i : Instr) (s : State) : (operandText i s).length ≤ 28 := by
  unfold operandText
  cases i.operand
  case absolute w =>
    dsimp only
    split <;> simp [equalsText]
  all_goals simp [equalsText, atText]

variable (s : State)

/-- R321: the text of columns 6 to 13 is the bytes of the instruction with one space between. -/
theorem byteText_eq :
    byteText s = List.intercalate [' ']
      ((List.range (lookup (s.read s.pc)).mode.length).map fun k => hex2 (s.read (s.pc + BitVec.ofNat 16 k))) := by
  have hle := (lookup (s.read s.pc)).mode.operandBytes_le
  obtain h | h | h : (lookup (s.read s.pc)).mode.operandBytes = 0 ∨ (lookup (s.read s.pc)).mode.operandBytes = 1 ∨
      (lookup (s.read s.pc)).mode.operandBytes = 2 := by omega
  all_goals simp [byteText, Mode.length, h, List.range_succ, List.intercalate]

theorem byteText_length_le : (byteText s).length ≤ 8 := by
  unfold byteText
  split <;> simp

theorem disassembly_length_le : (disassembly s).length ≤ 32 := by
  have hoperand := operandText_length_le s.fetchInstr s.enter
  unfold disassembly
  dsimp only
  split
  · simp
  · simp only [List.length_append, mnemonic_length, List.length_singleton]
    omega

theorem byteField_length : (padRight 8 (byteText s)).length = 8 := padRight_length (byteText_length_le s)

theorem disassemblyField_length : (padRight 32 (disassembly s)).length = 32 := padRight_length (disassembly_length_le s)

/-- R321: the columns in front of the registers. -/
theorem traceText_columns :
    (traceText s).take 4 = hex4 s.pc ∧ ((traceText s).drop 4).take 2 = [' ', ' '] ∧
    ((traceText s).drop 6).take 8 = padRight 8 (byteText s) ∧ (traceText s)[14]? = some ' ' ∧
    (traceText s)[15]? = some (if (lookup (s.read s.pc)).starred then '*' else ' ') ∧
    ((traceText s).drop 16).take 32 = padRight 32 (disassembly s) := by
  have hbytes := byteField_length s
  refine ⟨rfl, rfl, ?_, ?_, ?_, ?_⟩
  · simp [traceText, List.drop_append, List.take_append, hbytes]
  · simp [traceText, List.getElem?_append, hbytes]
  · simp [traceText, List.getElem?_append, hbytes]
  · rw [traceText, List.append_assoc, List.drop_left' (by simp [hbytes]), List.take_left' (disassemblyField_length s)]

/-- R321: the registers stand from column 48 on. -/
theorem traceText_drop_registers : (traceText s).drop 48 = registerText s :=
  List.drop_left' (by simp [byteField_length, disassemblyField_length])

theorem traceText_length : (traceText s).length = 81 := by
  have hregisters : (registerText s).length = 33 := rfl
  simp [traceText, byteField_length, disassemblyField_length, hregisters]

end Machine

end Sys2Proof
end

section
/-! SUPPORT. What a harness run records: the lines that differ, in order, as many as its tolerance lets it; and what a test
leaves. -/

namespace Sys2Proof.Machine

/-! The run -/

/-- What R336 records of a line that differs, after `n` lines. -/
def lineMismatch (n : Nat) (cpu : State) (raw : Text) : Mismatch := ⟨n + 1, traceText cpu, stripTerminator raw⟩

/-- Every line of a log that differs within the width: what a run records when no tolerance ends it. -/
def lineMismatches (width : Nat) : List Text → Nat → State → List Mismatch
  | [], _, _ => []
  | raw :: rest, n, cpu =>
    if mismatched width (traceText cpu) (stripTerminator raw) then
      lineMismatch n cpu raw :: lineMismatches width rest (n + 1) (stepCpu cpu)
    else lineMismatches width rest (n + 1) (stepCpu cpu)

variable {width : Nat} {log : List Text} {tolerance : Int} {n : Nat} {cpu : State} {found : List Mismatch} {raw : Text}

section
variable (h : mismatched width (traceText cpu) (stripTerminator raw) = true)
include h

theorem lineMismatches_cons_of_differs :
    lineMismatches width (raw :: log) n cpu = lineMismatch n cpu raw :: lineMismatches width log (n + 1) (stepCpu cpu) :=
  if_pos h

/-- R335: a line that differs is recorded and lowers the tolerance, and its instruction runs. -/
theorem harnessLoop_cons_of_differs :
    harnessLoop width (raw :: log) tolerance n cpu found =
      if tolerance - 1 ≤ 0 then (stepCpu cpu, found ++ [lineMismatch n cpu raw])
      else harnessLoop width log (tolerance - 1) (n + 1) (stepCpu cpu) (found ++ [lineMismatch n cpu raw]) := by
  simp [harnessLoop, h, lineMismatch]

end

section
variable (h : ¬ mismatched width (traceText cpu) (stripTerminator raw) = true)
include h

theorem lineMismatches_cons_of_agrees :
    lineMismatches width (raw :: log) n cpu = lineMismatches width log (n + 1) (stepCpu cpu) := if_neg h

/-- R335: a line that agrees only has its instruction run. -/
theorem harnessLoop_cons_of_agrees :
    harnessLoop width (raw :: log) tolerance n cpu found =
      if tolerance ≤ 0 then (stepCpu cpu, found) else harnessLoop width log tolerance (n + 1) (stepCpu cpu) found := by
  simp [harnessLoop, h]

end

/-- R336: a line is among those that differ exactly when it differs from the trace line of the state after the lines before
it. -/
theorem mem_lineMismatches {m : Mismatch} :
    m ∈ lineMismatches width log n cpu ↔
      ∃ k raw, log[k]? = some raw ∧ mismatched width (traceText (stepsCpu k cpu)) (stripTerminator raw) = true ∧
        m = lineMismatch (n + k) (stepsCpu k cpu) raw := by
  induction log generalizing n cpu with
  | nil => simp [lineMismatches]
  | cons raw rest ih =>
    have hcons : m ∈ lineMismatches width (raw :: rest) n cpu ↔
        (mismatched width (traceText cpu) (stripTerminator raw) = true ∧ m = lineMismatch n cpu raw) ∨
          m ∈ lineMismatches width rest (n + 1) (stepCpu cpu) := by
      by_cases h : mismatched width (traceText cpu) (stripTerminator raw) = true
      · simp [lineMismatches_cons_of_differs h, h]
      · simp [lineMismatches_cons_of_agrees h, h]
    rw [hcons, ih]
    constructor
    · rintro (⟨hdiffers, rfl⟩ | ⟨k, line, hline, hdiffers, rfl⟩)
      · exact ⟨0, raw, rfl, hdiffers, rfl⟩
      · exact ⟨k + 1, line, hline, hdiffers, by rw [Nat.add_right_comm]; rfl⟩
    · rintro ⟨_ | k, line, hline, hdiffers, rfl⟩
      · obtain rfl : raw = line := Option.some.inj hline
        exact .inl ⟨hdiffers, rfl⟩
      · exact .inr ⟨k, line, hline, hdiffers, by rw [Nat.add_right_comm]; rfl⟩

variable (width log tolerance n cpu found)

theorem lineMismatches_length_le : (lineMismatches width log n cpu).length ≤ log.length := by
  induction log generalizing n cpu with
  | nil => exact Nat.le_refl 0
  | cons raw rest ih =>
    unfold lineMismatches
    split
    · exact Nat.succ_le_succ (ih _ _)
    · exact Nat.le_succ_of_le (ih _ _)

/-- R335: with a tolerance above zero the run records the lines that differ until the tolerance is used up. -/
theorem harnessLoop_of_pos (hpos : 0 < tolerance) :
    (harnessLoop width log tolerance n cpu found).2 = found ++ (lineMismatches width log n cpu).take tolerance.toNat := by
  induction log generalizing tolerance n cpu found with
  | nil => simp [harnessLoop, lineMismatches]
  | cons raw rest ih =>
    by_cases h : mismatched width (traceText cpu) (stripTerminator raw) = true
    · rw [harnessLoop_cons_of_differs h, lineMismatches_cons_of_differs h]
      by_cases hlast : tolerance - 1 ≤ 0
      · obtain rfl : tolerance = 1 := by omega
        rw [if_pos hlast]
        rfl
      · have hsucc : tolerance.toNat = (tolerance - 1).toNat + 1 := by omega
        rw [if_neg hlast, ih _ _ _ _ (by omega), hsucc, List.take_succ_cons, List.append_assoc, List.singleton_append]
    · rw [harnessLoop_cons_of_agrees h, lineMismatches_cons_of_agrees h, if_neg (by omega), ih _ _ _ _ hpos]

/-- R335: with a tolerance of zero or less the run ends after the first line, whether it differs or not. -/
theorem harnessLoop_of_nonpos (hnonpos : tolerance ≤ 0) :
    ∃ j ≤ 1, (harnessLoop width log tolerance n cpu found).2 = found ++ (lineMismatches width log n cpu).take j := by
  cases log with
  | nil => exact ⟨0, Nat.zero_le 1, (List.append_nil found).symm⟩
  | cons raw rest =>
    by_cases h : mismatched width (traceText cpu) (stripTerminator raw) = true
    · refine ⟨1, le_rfl, ?_⟩
      rw [harnessLoop_cons_of_differs h, lineMismatches_cons_of_differs h, if_pos (by omega)]
      rfl
    · refine ⟨0, Nat.zero_le 1, ?_⟩
      rw [harnessLoop_cons_of_agrees h, if_pos hnonpos, List.take_zero, List.append_nil]

/-- R336: a run records the first of the lines that differ, at most as many as its tolerance, or one. -/
theorem harnessLoop_records :
    ∃ j : Nat, (j : Int) ≤ max tolerance 1 ∧
      (harnessLoop width log tolerance n cpu found).2 = found ++ (lineMismatches width log n cpu).take j := by
  obtain hnonpos | hpos := le_or_gt tolerance 0
  · obtain ⟨j, hj, hrecords⟩ := harnessLoop_of_nonpos width log tolerance n cpu found hnonpos
    exact ⟨j, by omega, hrecords⟩
  · exact ⟨tolerance.toNat, by omega, harnessLoop_of_pos width log tolerance n cpu found hpos⟩

/-! The test -/

/-- R338: with the log missing nothing changes. -/
theorem harnessTest_of_missing {h : HarnessParams} (hlog : openLog h = none) (ss : Session) :
    harnessTest h tolerance ss = (ss, .missingLog) := by
  rw [harnessTest, hlog]

/-- R335: whatever the log says, the session ends in Done with the core created over memInit (D26). -/
theorem harnessTest_of_log {h : HarnessParams} (hlog : openLog h = some log) (ss : Session) :
    (harnessTest h tolerance ss).1 = { ss with cpu := create h.memInit, phase := .done } := by
  rw [harnessTest, hlog]
  rfl

end Sys2Proof.Machine
end

section
/-! The statements about exceptions, traces and the host, 60_exceptions.md: each settled from the facts about the mark, the trap,
the trace line and the harness. -/

namespace Sys2Proof.Proofs

open Sys2Proof Sys2Proof.Machine

/-- Settles O14: execution writes the mark for an undocumented tag alone, and neither the fetch nor the clock touches it. -/
theorem markIsSetByUndocumentedTagsOnly : Obligations.MarkIsSetByUndocumentedTagsOnly := by
  unfold Obligations.MarkIsSetByUndocumentedTagsOnly
  intro s hs
  refine ⟨_, step_eq s, ?_⟩
  rw [State.tick_unimpl, effectOf_apply_unimpl, State.enter_unimpl, hs, Option.none_or, State.fetchInstr_tag,
    State.fetchInstr_opcode]

/-- Settles O49: the three pulls of RTI read the three bytes that BRK stored, the last one first. -/
theorem rtiAfterBrkReturnsToTheBrk : Obligations.RtiAfterBrkReturnsToTheBrk := by
  unfold Obligations.RtiAfterBrkReturnsToTheBrk
  intro pc' s
  have hrti : exec .rti (s.trapEntry.withPC pc') = .next { s.trapEntry with pc := s.pc - 1#16, p := s.p, sp := s.sp } :=
    (exec_eq _ _).trans (congrArg _ (s.trapReturn_trapEntry pc'))
  exact ⟨_, _, exec_eq .brk s, hrti, rfl, rfl, rfl, rfl, rfl, rfl⟩

/-- Settles O55: the bytes fit in 8 characters and the mnemonic with its operand text in 32, so that every column is where R321
has it; each template is the one of its mode. -/
theorem traceLineIsEightyOneCharacters : Obligations.TraceLineIsEightyOneCharacters := by
  unfold Obligations.TraceLineIsEightyOneCharacters
  refine ⟨fun s => ?_, fun i s b w => ?_, fun _ => rfl, hex4_eq, fun n hn => decimal3_eq (by omega)⟩
  · obtain ⟨hpc, hspaces, hbytes, hblank, hstar, htext⟩ := traceText_columns s
    rw [byteText_eq] at hbytes
    rw [disassembly, State.fetchInstr_tag] at htext
    exact ⟨traceText_length s, hpc, hspaces, hbytes, hblank, hstar, htext, traceText_drop_registers s⟩
  · refine ⟨?_, ?_, ?_, ?_, fun h hjump => by simp [operandText, h, hjump],
      fun h hjmp hjsr => by simp [operandText, h, hjmp, hjsr, resolve, equalsText], ?_, ?_, ?_, ?_, ?_, ?_, ?_, ?_⟩
    all_goals
      intro h
      simp [operandText, h, resolve, equalsText, atText]

/-- Settles O58: a run records an initial part of the lines that differ, which its tolerance cuts off; one that exceeds the log
cuts nothing off (D25). -/
theorem harnessRecordsWithinTolerance : Obligations.HarnessRecordsWithinTolerance := by
  unfold Obligations.HarnessRecordsWithinTolerance
  intro width log tolerance cpu found
  obtain ⟨j, hj, hfound⟩ : ∃ j : Nat, (j : Int) ≤ max tolerance 1 ∧ found = (lineMismatches width log 0 cpu).take j :=
    harnessLoop_records width log tolerance 0 cpu []
  refine ⟨?_, fun m hm => ?_, fun hwide n raw hraw hdiffers => ?_⟩
  · have htake := List.length_take_le j (lineMismatches width log 0 cpu)
    rw [hfound]
    omega
  · rw [hfound] at hm
    obtain ⟨k, raw, hraw, hdiffers, rfl⟩ := mem_lineMismatches.1 (List.mem_of_mem_take hm)
    rw [Nat.zero_add]
    exact ⟨Nat.le_add_left 1 k, congrArg (Option.map stripTerminator) hraw, rfl, bne_iff_ne.1 hdiffers⟩
  · have hlength := lineMismatches_length_le width log 0 cpu
    have hall : found = lineMismatches width log 0 cpu :=
      (harnessLoop_of_pos width log tolerance 0 cpu [] (by omega)).trans (List.take_of_length_le (by omega))
    rw [hall]
    exact mem_lineMismatches.2 ⟨n, raw, hraw, bne_iff_ne.2 hdiffers, by rw [Nat.zero_add]; rfl⟩

/-- Settles O56: the commands by their definition, and the parser run on the given lines (D27). -/
theorem gotoWritesPCOnly : Obligations.GotoWritesPCOnly := by
  unfold Obligations.GotoWritesPCOnly
  exact ⟨fun _ _ _ => rfl, fun _ _ => rfl, by decide, by decide, by decide, by decide⟩

/-- Settles O57: the two answers to opening the log. -/
theorem harnessEndsAtPowerOnState : Obligations.HarnessEndsAtPowerOnState := by
  unfold Obligations.HarnessEndsAtPowerOnState
  intro h tolerance ss
  refine ⟨fun hmissing => harnessTest_of_missing tolerance hmissing ss, fun hpresent => ?_⟩
  obtain ⟨log, hlog⟩ := Option.ne_none_iff_exists'.1 hpresent
  exact harnessTest_of_log log tolerance hlog ss

end Sys2Proof.Proofs
end

section
/-! SUPPORT. A step from a good state, and one equation for each way a run goes on or ends. -/

namespace Sys2Proof.Machine

/-- R301, R305: from a good state a step leads to a good one exactly when its outcome is `ok`. -/
theorem State.Good.step_good_iff {s : State} (hs : s.Good) : ∃ t, step s = .next t ∧ (t.Good ↔ s.stepOutcome = .ok) := by
  obtain ⟨t, hstep, hmark⟩ := Proofs.markIsSetByUndocumentedTagsOnly s hs
  obtain ⟨-, houtcome⟩ := Proofs.stepAlwaysCompletes s
  refine ⟨t, hstep, ?_⟩
  rw [State.Good, hmark, houtcome]
  split <;> simp

variable {stop : Option Word} {s t : State} (budget : Nat)

/-- R356 (a): at its stop address a run ends, also with its budget used up (log 13). -/
theorem runUntil_of_stop (h : stop = some s.pc) : runUntil stop budget s = (s, .stopAddress) := by
  cases budget <;> simp [runUntil, h]

/-- R356 (b): elsewhere it ends with its budget used up. -/
theorem runUntil_zero_of_ne (h : stop ≠ some s.pc) : runUntil stop 0 s = (s, .budget) := by simp [runUntil, h]

/-- R356 (c): elsewhere it makes a step, and goes on exactly when the outcome is `ok`. -/
theorem runUntil_succ_of_ne (h : stop ≠ some s.pc) (hstep : step s = .next t) :
    runUntil stop (budget + 1) s = if s.stepOutcome = .ok then runUntil stop budget t else (t, .unimplemented) := by
  simp [runUntil, h, hstep]

end Sys2Proof.Machine
end

section
/-! The statements about reset and good runs, 70_reset_and_hazards.md: the first by the values of reset, the second by induction
on the budget. -/

namespace Sys2Proof.Proofs

open Sys2Proof Sys2Proof.Machine

/-- Settles O1: create and reset answer the state of `State.reset` but for its memory (D21, D6). -/
theorem resetGivesTheNamedValues : Obligations.ResetGivesTheNamedValues := by
  unfold Obligations.ResetGivesTheNamedValues
  refine ⟨?_, fun _ => rfl, fun _ => ⟨rfl, rfl⟩⟩
  rintro s (rfl | ⟨m, rfl⟩ | ⟨u, rfl⟩)
  all_goals exact ⟨rfl, rfl, rfl, rfl, rfl, rfl, rfl, rfl⟩

/-- Settles O59: each step that goes on keeps the state good, and the one step that sets the mark ends the run by its outcome. -/
theorem runIsGoodUnlessUnimplemented : Obligations.RunIsGoodUnlessUnimplemented := by
  unfold Obligations.RunIsGoodUnlessUnimplemented
  intro stop budget s hs
  induction budget generalizing s with
  | zero =>
    by_cases hstop : stop = some s.pc
    · rw [runUntil_of_stop 0 hstop]
      exact ⟨iff_of_true hs nofun, nofun, fun _ => hstop⟩
    · rw [runUntil_zero_of_ne hstop]
      exact ⟨iff_of_true hs nofun, nofun, nofun⟩
  | succ k ih =>
    by_cases hstop : stop = some s.pc
    · rw [runUntil_of_stop (k + 1) hstop]
      exact ⟨iff_of_true hs nofun, nofun, fun _ => hstop⟩
    · obtain ⟨t, hstep, hgood⟩ := hs.step_good_iff
      rw [runUntil_succ_of_ne k hstop hstep]
      split
      next hok => exact ih t (hgood.2 hok)
      next hnot => exact ⟨iff_of_false (mt hgood.1 hnot) (not_not_intro rfl), nofun, nofun⟩

end Sys2Proof.Proofs
end
